-- ==== Sys2Proof/Word.lean ====
section
/-! DEFINITION. The two word types of the core: a byte of a frame and a 16-bit register (spec/00_scope.md rule R8). -/

namespace Sys2Proof

/-- One byte of a frame, a buffer or a configuration value: 8 bits, unsigned (R8). -/
abbrev Byte := BitVec 8

/-- One *word*: 16 bits, unsigned (R8). Registers, the two header fields and the CRC are words (R94). -/
abbrev Word := BitVec 16

end Sys2Proof
end

