-- ==== Sys2Proof/Machine/Codec.lean ====
section
/-! DEFINITION. The byte codec (spec/41_byte_codec.md R90 to R92): big-endian for protocol fields, little-endian for payload
values and the CRC; and the byte-sequence primitives `MemRead` and `MemWrite` of spec/00_scope.md R9. -/

namespace Sys2Proof

/-- `lo8(v) = v[7:0]` (R8). -/
def lo8 (v : Word) : Byte := v.setWidth 8

/-- `hi8(v) = v[15:8]` (R8). -/
def hi8 (v : Word) : Byte := (v >>> 8).setWidth 8

/-- R90 decode: `be16(first, second) = first * 256 + second`. -/
def be16 (first second : Byte) : Word := first ++ second

/-- R91 decode: `le16(first, second) = second * 256 + first`. -/
def le16 (first second : Byte) : Word := second ++ first

/-- R90 encode: the high byte goes first. -/
def beBytes (v : Word) : List Byte := [hi8 v, lo8 v]

/-- R91 encode: the low byte goes first. -/
def leBytes (v : Word) : List Byte := [lo8 v, hi8 v]

/-- R92: `swap16(v) = lo8(v) * 256 + hi8(v)`. -/
def swap16 (v : Word) : Word := lo8 v ++ hi8 v

/-- R9 `MemRead(buf, addr, n)`: the `n` bytes from `addr` on, in increasing address order. -/
def memRead (buf : List Byte) (addr n : Nat) : List Byte := (buf.drop addr).take n

/-- R9 `MemWrite(buf, addr, n, v)` with `n` the length of `v`: those bytes replaced, every other byte kept. Bytes that go past
the end of the buffer stand behind it (log entry 14, the only case). -/
def memWrite (buf : List Byte) (addr : Nat) (v : List Byte) : List Byte :=
  buf.take addr ++ v ++ buf.drop (addr + v.length)

end Sys2Proof
end

