-- ==== Sys2Proof/Config.lean ====
section
/-! DEFINITION. What an implementation of the core fixes (spec/00_scope.md rule R5), the record `Configure` loads (R5, R174),
and the one free value: the content of a register nobody has written (R171; 93_implementation_defined.md U3). -/

namespace Sys2Proof

/-- The two register files of the bank (R11). Selector codes (R76): `Input` = 0, `Holding` = 1. -/
inductive RegKind where
  | input
  | holding
  deriving DecidableEq, Repr

/-- The two modes of the CRC engine's `apply` (R83, R84). Selector codes (R76): `Append` = 0, `Verify` = 1. -/
inductive CrcMode where
  | append
  | verify
  deriving DecidableEq, Repr

/-- What a configuration says of one register array (R6 "both register arrays are supplied", R174 "bind the register
arrays"). The array is the host's (R11, R56), so binding one never changes the host's data. Log entry 10. -/
inductive Supply where
  /-- No array is supplied: the configuration is ill-formed (R6, R176). -/
  | missing
  /-- The array the host holds now is supplied, with whatever the host has put in it. -/
  | held
  /-- A new array is supplied, of which nothing has been written: every register of it is unspecified (R171). -/
  | fresh
  deriving DecidableEq, Repr

/-- The argument of `Configure(cfg)`: the open parameters of R5, and whether the arrays, the byte source and the byte sink
are supplied (R6). Sizes and times are naturals so that an ill-formed value can be offered (R176). -/
structure Cfg where
  timeout : Nat
  deviceAddr : Byte
  inputCount : Nat
  holdingCount : Nat
  maxReadCount : Nat
  readHookEn : Bool
  writeHookEn : Bool
  hookCtx : Nat
  inputArray : Supply
  holdingArray : Supply
  byteSource : Bool
  byteSink : Bool
  deriving DecidableEq, Repr

namespace Config

/-- `REQ_LEN`: the length in bytes of every request on the wire (R5, R60). -/
abbrev reqLen : Nat := 8

/-- `REQ_PAYLOAD_LEN`: the request bytes the CRC covers (R5, R60). -/
abbrev reqPayloadLen : Nat := 6

/-- The seed of the CRC (R81: "seed `0xFFFF`"). -/
abbrev crcSeed : Word := 0xFFFF

/-- The largest number of registers in one array (R5, R19: 1..65536). -/
abbrev maxArraySize : Nat := 65536

/-- The largest legal `MAX_READ_COUNT` (R20: 127, since `byte_count` is one byte). -/
abbrev maxReadBound : Nat := 127

/-- The default of `MAX_READ_COUNT` (R5, R20). -/
abbrev defaultMaxReadCount : Nat := 125

/-- The default of `TW` (R5). -/
abbrev defaultTw : Nat := 32

/-- FREE VALUE (log entry 9). The content of register `i` of the array of kind `k` while nobody has written that register:
"a read returns an arbitrary 16-bit value, possibly different per register; not zero" (93_implementation_defined.md U3,
R171). The first number is the array's epoch: a fresh array (`Supply.fresh`) has other unspecified contents than the one
before it. There is no body, so nothing can be proved of the value. -/
opaque unseededRegister : Nat → RegKind → Nat → Word

end Config

end Sys2Proof
end

