-- ==== Sys2Proof/Syntax.lean ====
section
/-! DEFINITION. The instructions of the core: the request frames (spec/00_scope.md R1; 30_encoding.md R60, R61, R68), one
constructor per row of spec/opcode_table.json, and the 8 bytes a request is on the wire. -/

namespace Sys2Proof

/-- A request. The operands are those of the opcode table's `syntax` column and of R73: the address byte and the two header
fields. The frame's CRC is no operand: it is implied by the other six bytes (R73 "the CRC is implied and is the correct
one"), and a frame whose CRC bytes differ is dropped before it is decoded (R68, R143). Log entry 18. -/
inductive Instr where
  /-- `RHR @addr, start, count`: Read Holding Registers, function code 0x03 (R124). -/
  | rhr (addr : Byte) (start count : Word)
  /-- `RIR @addr, start, count`: Read Input Registers, function code 0x04 (R125). -/
  | rir (addr : Byte) (start count : Word)
  /-- `WSR @addr, reg, value`: Write Single Register, function code 0x06 (R126). -/
  | wsr (addr : Byte) (reg value : Word)
  /-- `FN 0xNN @addr, a, b`: any other function code, answered with Illegal Function (R127). -/
  | illfn (addr : Byte) (fc : Byte) (a b : Word)
  deriving DecidableEq, Repr

/-- The 8 bytes `B0 .. B7` of a candidate frame, in the order they are taken from the wire (R8, R60). It is also the receive
buffer `RX[0..7]` (R25). -/
structure Frame where
  b0 : Byte
  b1 : Byte
  b2 : Byte
  b3 : Byte
  b4 : Byte
  b5 : Byte
  b6 : Byte
  b7 : Byte
  deriving DecidableEq, Repr

/-- The tag of a decoded request (R28). -/
inductive ReqKind where
  | readHolding
  | readInput
  | writeSingle
  | unknown
  deriving DecidableEq, Repr

end Sys2Proof
end

