-- ==== Sys2Proof/WellFormed.lean ====
section
/-! DEFINITION. Which instructions (spec/30_encoding.md R68) and which configurations (spec/00_scope.md R6) are well-formed. -/

namespace Sys2Proof

/-- The function-code byte of an instruction (R68). -/
def Instr.functionCode : Instr → Byte
  | .rhr _ _ _ => 0x03
  | .rir _ _ _ => 0x04
  | .wsr _ _ _ => 0x06
  | .illfn _ fc _ _ => fc

/-- R68: `ILLFN` stands for every function code but 0x03, 0x04 and 0x06. Every value of every other operand is legal
(R69, R130). -/
def Instr.wf : Instr → Bool
  | .rhr _ _ _ => true
  | .rir _ _ _ => true
  | .wsr _ _ _ => true
  | .illfn _ fc _ _ => fc != 0x03 && fc != 0x04 && fc != 0x06

/-- R5, R19: a register array has 1 to 65536 registers. Log entry 15. -/
def sizeLegal (n : Nat) : Bool := 1 ≤ n && n ≤ Config.maxArraySize

/-- R6 "both register arrays are supplied". -/
def Supply.present : Supply → Bool
  | .missing => false
  | .held => true
  | .fresh => true

/-- R6: the well-formed configurations of a core whose time counter has `tw` bits. -/
def Cfg.wf (tw : Nat) (c : Cfg) : Bool :=
  sizeLegal c.inputCount && sizeLegal c.holdingCount &&
    c.inputArray.present && c.holdingArray.present &&
    (1 ≤ c.maxReadCount && c.maxReadCount ≤ Config.maxReadBound) &&
    (1 ≤ c.timeout && c.timeout < 2 ^ tw) &&
    c.byteSource && c.byteSink

end Sys2Proof
end

