-- ==== Sys2Proof/Decode.lean ====
section
/-! DEFINITION. From the 8 bytes of a frame to a request and back (spec/30_encoding.md R60 to R63, R68;
44_request_dispatcher.md R121), and the numbering of spec/opcode_table.json (spec/00_scope.md R8). -/

namespace Sys2Proof

/-- The bytes of a frame in wire order (R8). -/
def Frame.bytes (f : Frame) : List Byte := [f.b0, f.b1, f.b2, f.b3, f.b4, f.b5, f.b6, f.b7]

/-- The request bytes that the CRC covers, `B0` to `B5` (R60). -/
def Frame.body (f : Frame) : List Byte := [f.b0, f.b1, f.b2, f.b3, f.b4, f.b5]

/-- `crc_received = le16(RX[6], RX[7])` (R63). -/
def Frame.crcField (f : Frame) : Word := le16 f.b6 f.b7

/-- R121: the decode of the 8 bytes. It is the same for every function code, cannot fail, and reads no CRC byte: the frame
has been verified before (R68). -/
def decode (f : Frame) : Instr :=
  if f.b1 = 0x03 then .rhr f.b0 (be16 f.b2 f.b3) (be16 f.b4 f.b5)
  else if f.b1 = 0x04 then .rir f.b0 (be16 f.b2 f.b3) (be16 f.b4 f.b5)
  else if f.b1 = 0x06 then .wsr f.b0 (be16 f.b2 f.b3) (be16 f.b4 f.b5)
  else .illfn f.b0 f.b1 (be16 f.b2 f.b3) (be16 f.b4 f.b5)

/-- What a byte sequence decodes to: a request and the bytes after its frame, or a rejection. -/
inductive Decoded where
  | request (i : Instr) (rest : List Byte)
  /-- Fewer than 8 bytes are no candidate frame (R71). -/
  | rejectTooShort (count : Nat)
  deriving DecidableEq, Repr

/-- The decoder over any bytes (R71, R72): every request is 8 bytes long, whatever its function code. -/
def decodeBytes : List Byte → Decoded
  | b0 :: b1 :: b2 :: b3 :: b4 :: b5 :: b6 :: b7 :: rest =>
    .request (decode (Frame.mk b0 b1 b2 b3 b4 b5 b6 b7)) rest
  | short => .rejectTooShort short.length

/-- The address byte of a request (R70). -/
def Instr.addr : Instr → Byte
  | .rhr a _ _ => a
  | .rir a _ _ => a
  | .wsr a _ _ => a
  | .illfn a _ _ _ => a

/-- `field_a` of a request (R61). -/
def Instr.fieldA : Instr → Word
  | .rhr _ x _ => x
  | .rir _ x _ => x
  | .wsr _ x _ => x
  | .illfn _ _ x _ => x

/-- `field_b` of a request (R61). -/
def Instr.fieldB : Instr → Word
  | .rhr _ _ y => y
  | .rir _ _ y => y
  | .wsr _ _ y => y
  | .illfn _ _ _ y => y

/-- `REQ_KIND` of a request (R28, R121). -/
def Instr.kind : Instr → ReqKind
  | .rhr _ _ _ => .readHolding
  | .rir _ _ _ => .readInput
  | .wsr _ _ _ => .writeSingle
  | .illfn _ _ _ _ => .unknown

/-- The six bytes before the CRC, as R60 lays them out and R73 writes them. -/
def Instr.body (i : Instr) : List Byte :=
  [i.addr, i.functionCode, hi8 i.fieldA, lo8 i.fieldA, hi8 i.fieldB, lo8 i.fieldB]

/-- The frame of a request: its six bytes and their CRC, low byte first (R60, R73). -/
def encode (i : Instr) : Frame :=
  Frame.mk i.addr i.functionCode (hi8 i.fieldA) (lo8 i.fieldA) (hi8 i.fieldB) (lo8 i.fieldB)
    (lo8 (crc16 i.body)) (hi8 (crc16 i.body))

/-- Byte `k` of the 64-bit frame value `W = B0*2^56 + ... + B7` (R8). -/
def tableByte (w k : Nat) : Byte := BitVec.ofNat 8 (w / 2 ^ (8 * (7 - k)))

/-- The frame that the number `W` of the opcode table stands for (R8): `B0 = W[63:56]`, `B7 = W[7:0]`. -/
def Frame.ofTableWord (w : Nat) : Frame :=
  Frame.mk (tableByte w 0) (tableByte w 1) (tableByte w 2) (tableByte w 3)
    (tableByte w 4) (tableByte w 5) (tableByte w 6) (tableByte w 7)

/-- The number `W` of a frame (R8). -/
def Frame.toTableWord (f : Frame) : Nat := f.bytes.foldl (fun w b => w * 256 + b.toNat) 0

/-- The request that the decoder reads from the opcode table's number `w` (log entry 19). -/
def decodeTableWord (nbits w : Nat) : Option Instr :=
  match decodeBytes (Frame.ofTableWord (w % 2 ^ nbits)).bytes with
  | .request i _ => some i
  | .rejectTooShort _ => none

end Sys2Proof
end

