-- ==== Sys2Proof/Machine/State.lean ====
section
/-! DEFINITION. Every piece of state the spec gives the core (spec/10_state.md R10 to R28), the environment the model carries
beside it (spec/00_scope.md R7), the reasons a step can stop, and the state after reset (R31). -/

namespace Sys2Proof.Machine

/-- `SYNC_STATE` (R14, R106). Codes: `Idle` = 0, `Accumulating` = 1, `FrameReady` = 2; no rule produces 3. -/
inductive SyncState where
  | idle
  | accumulating
  | frameReady
  deriving DecidableEq, Repr

/-- `RESULT.kind` (R24). Codes: `Idle` = 0, `NoAction` = 1, `Written` = 2; 3 is never produced. -/
inductive ResultKind where
  | idle
  | noAction
  | written
  deriving DecidableEq, Repr

/-- `RESULT` (R24): the semantic result of a step. -/
structure Result where
  kind : ResultKind
  value : Word
  deriving DecidableEq, Repr

/-- The registers that have been written, as pairs of index and value. The canonical form is strictly rising indices. An
unlisted register has not been written and holds an unspecified value (R171), so no listed pair repeats what an unlisted
register reads as. -/
abbrev Memory := List (Nat × Word)

/-- One register array (R11): the host's storage. The epoch counts the fresh arrays the host has supplied (log entry 9). -/
structure RegFile where
  epoch : Nat
  cells : Memory
  deriving DecidableEq, Repr

/-- What the host may sample at any time (R32): the status registers, read together. -/
structure Status where
  syncState : SyncState
  pendingLen : Nat
  result : Result
  cfgError : Bool
  configured : Bool
  deriving DecidableEq, Repr

/-- What the host does to the core or beside it in one piece: one access to one register of its own storage (R45, R102), or one
sample of the status registers (R32). -/
inductive HostAccess where
  | read (kind : RegKind) (i : Nat)
  | write (kind : RegKind) (i : Nat) (v : Word)
  | sample
  deriving DecidableEq, Repr

/-- What the environment does at one point between two actions of a transaction: host accesses (R51) and samples (R32), and after them
possibly a `Reset` (R170 "If `Reset` falls inside a transaction"). -/
structure Gap where
  accesses : List HostAccess
  resets : Bool
  deriving DecidableEq, Repr

/-- The input events of R7. `Process` is not among them: it is the core's own. R100 and R101 set no limit on the length of a bulk
operation and R98 speaks of 16-bit `start` and `count`: that `start`, `n` and the length of `values` are any naturals here is
the model's choice, log entry 27. `hostSample` is the sampling of R32, to which R7 gives no name: log entry 28. -/
inductive Event where
  | reset
  | configure (cfg : Cfg)
  | rxByte (b : Byte) (now : Nat)
  | poll (now : Nat)
  | hostRead (kind : RegKind) (i : Nat)
  | hostWrite (kind : RegKind) (i : Nat) (v : Word)
  | bulkLoad (kind : RegKind) (start : Nat) (values : List Word)
  | bulkStore (kind : RegKind) (start : Nat) (n : Nat)
  | hostSample
  deriving DecidableEq, Repr

/-- The output events of R7, and the answers the host gets from its own accesses (R101, R102) and samples (R32). -/
inductive Output where
  | txFrame (bytes : List Byte)
  | readEvent (bytes : List Byte) (ctx : Nat)
  | preWriteEvent (bytes : List Byte) (ctx : Nat)
  | result (r : Result)
  | hostValue (kind : RegKind) (i : Nat) (v : Word)
  | hostValues (kind : RegKind) (start : Nat) (values : List Word)
  | hostStatus (status : Status)
  deriving DecidableEq, Repr

/-- The state of the machine (R10). Each field's docstring names the register of the spec. -/
structure State where
  /-- `HR[0 .. HOLDING_COUNT-1]` (R11). -/
  hr : RegFile
  /-- `IR[0 .. INPUT_COUNT-1]` (R11). -/
  ir : RegFile
  /-- `SYNC_STATE` (R14). -/
  syncState : SyncState
  /-- `PENDING_LEN`, 0..8 (R15). -/
  pendingLen : Nat
  /-- `LAST_ACTIVITY`, a `TW`-bit time (R16). -/
  lastActivity : Nat
  /-- `RX[0..7]` (R25). -/
  rx : Frame
  /-- `TIMEOUT`, a `TW`-bit number of ticks (R17). -/
  timeout : Nat
  /-- `DEVICE_ADDR` (R18). -/
  deviceAddr : Byte
  /-- `INPUT_COUNT`, 1..65536 (R19). -/
  inputCount : Nat
  /-- `HOLDING_COUNT`, 1..65536 (R19). -/
  holdingCount : Nat
  /-- `MAX_READ_COUNT`, 1..127 (R20). -/
  maxReadCount : Nat
  /-- `READ_HOOK_EN` (R21). -/
  readHookEn : Bool
  /-- `WRITE_HOOK_EN` (R21). -/
  writeHookEn : Bool
  /-- `HOOK_CTX`, opaque, never interpreted (R21). -/
  hookCtx : Nat
  /-- `CRC_ACC` (R22). -/
  crcAcc : Word
  /-- `CRC_MATCH` (R23). -/
  crcMatch : Bool
  /-- `CFG_ERROR` (R23). -/
  cfgError : Bool
  /-- `CONFIGURED` (R23). -/
  configured : Bool
  /-- `RESULT` (R24). -/
  result : Result
  /-- `TX[0 .. TX_BUF_LEN-1]` (R26); log entry 14 for the one write that goes one byte further. -/
  tx : List Byte
  /-- `TX_LEN` (R26). -/
  txLen : Nat
  /-- `REQ_FC` (R28). -/
  reqFc : Byte
  /-- `REQ_FIELD_A` (R28). -/
  reqFieldA : Word
  /-- `REQ_FIELD_B` (R28). -/
  reqFieldB : Word
  /-- `REQ_KIND` (R28). -/
  reqKind : ReqKind
  /-- The parameter `TW` (R5), constant. The model's own field, log entry 13. -/
  tw : Nat
  /-- The events the environment will offer, oldest first (R7). The model's own field, log entry 1. -/
  inputs : List Event
  /-- What the environment does at the coming points inside transactions, nearest first (R51). The model's own field, log
  entry 4. -/
  gaps : List Gap
  /-- The outputs so far, oldest first (R7). The model's own field, log entry 2. -/
  out : List Output
  deriving DecidableEq, Repr

/-- The core never stops with a fault: "No error in this system is fatal to the process" (R150). No constructor, so nothing
raises one (safe). -/
inductive Fault where
  deriving DecidableEq, Repr

/-- Why a step answers no next state. -/
inductive Refusal where
  /-- An instruction that has no meaning yet; raised by `exec`'s refused arms only (safe). -/
  | notModelled (mnemonic : String)
  /-- `RxByte` is offered while the core takes no byte; raised by `rxByte` (safe: R174, R114, R176). -/
  | rxByteNotEnabled
  /-- `Poll` is offered while it is not enabled; raised by `poll` (safe: R174, R114, R176). -/
  | pollNotEnabled
  /-- `Configure` is offered although `CONFIGURED = 1` or `CFG_ERROR = 1`; raised by `configure` (safe: R174, R175). -/
  | configureNotEnabled
  /-- The host names a register outside the array, to which the spec gives no meaning; raised by `hostAccess` (safe: R102,
  93_implementation_defined.md U5). -/
  | hostIndexOutOfRange (kind : RegKind) (i : Nat)
  /-- A bulk operation before the sizes exist; raised by the bulk events (safe: 93_implementation_defined.md U2,
  90_conflicts.md C12). -/
  | sizesNotConfigured
  deriving DecidableEq, Repr

/-- R31: the state after reset. Where R31 says "unspecified" the value named here is the model's choice, log entry 11; the
register arrays list nothing, for the host has written nothing. -/
def State.reset : State where
  hr := RegFile.mk 0 []
  ir := RegFile.mk 0 []
  syncState := .idle
  pendingLen := 0
  lastActivity := 0
  rx := Frame.mk 0 0 0 0 0 0 0 0
  timeout := 0
  deviceAddr := 0
  inputCount := 0
  holdingCount := 0
  maxReadCount := 0
  readHookEn := false
  writeHookEn := false
  hookCtx := 0
  crcAcc := 0xFFFF
  crcMatch := false
  cfgError := false
  configured := false
  result := Result.mk .idle 0
  tx := List.replicate 5 0
  txLen := 0
  reqFc := 0
  reqFieldA := 0
  reqFieldB := 0
  reqKind := .unknown
  tw := Config.defaultTw
  inputs := []
  gaps := []
  out := []

end Sys2Proof.Machine
end

