-- ==== Sys2Proof/Machine/Operands.lean ====
section
/-! DEFINITION. The operands of the core: register ranges and the one bounds check (spec/42_register_bank.md R98; 20_memory.md
R41), the numeric codes of the named selectors (10_state.md R14, R24; 30_encoding.md R76), the size of the response buffer
(30_encoding.md R66), and the elapsed time (43_frame_synchronizer.md R107, R108). -/

namespace Sys2Proof.Machine

/-- R14: the code of `SYNC_STATE`. -/
def SyncState.code : SyncState → BitVec 2
  | .idle => 0
  | .accumulating => 1
  | .frameReady => 2

/-- R24: the code of `RESULT.kind`. -/
def ResultKind.code : ResultKind → BitVec 2
  | .idle => 0
  | .noAction => 1
  | .written => 2

/-- R76: the selector of the register kind. -/
def kindCode : RegKind → BitVec 1
  | .input => 0
  | .holding => 1

/-- R76: the selector of the CRC mode. -/
def modeCode : CrcMode → BitVec 1
  | .append => 0
  | .verify => 1

/-- R98: `size(Holding) = HOLDING_COUNT`, `size(Input) = INPUT_COUNT`. -/
def State.size (s : State) : RegKind → Nat
  | .input => s.inputCount
  | .holding => s.holdingCount

/-- R98 `in_range(kind, start, count)`: the sum is formed over the naturals and never wraps. A request's `start` and `count` are
16-bit; those of a host operation are any naturals (log entry 27). -/
def State.inRange (s : State) (k : RegKind) (start count : Nat) : Bool := start + count ≤ s.size k

/-- The indices the host's own storage has: the configured size (R102); before `Configure` no size exists (C12, R19) and
any index a legal array can have is admitted. Log entry 7. -/
def State.hostSize (s : State) (k : RegKind) : Nat :=
  if s.configured then s.size k else Config.maxArraySize

/-- R5, R26, R66: `TX_BUF_LEN = 5 + 2 x MAX_READ_COUNT`. For `MAX_READ_COUNT = 1` the write response (R65) is one byte longer,
log entry 14. -/
def txBufLen (maxReadCount : Nat) : Nat := 5 + 2 * maxReadCount

/-- R107: `elapsed(now) = (now - LAST_ACTIVITY) mod 2^TW`. -/
def elapsed (tw now last : Nat) : Nat := (BitVec.ofNat tw now - BitVec.ofNat tw last).toNat

/-- R108: `timed_out(now)`. -/
def State.timedOut (s : State) (now : Nat) : Bool :=
  s.syncState == .accumulating && s.timeout ≤ elapsed s.tw now s.lastActivity

end Sys2Proof.Machine

namespace Sys2Proof

/-- `RX[i] <- b` (R9, R25). There is no byte beyond index 7 (R119). -/
def Frame.set (f : Frame) (i : Nat) (b : Byte) : Frame :=
  match i with
  | 0 => { f with b0 := b }
  | 1 => { f with b1 := b }
  | 2 => { f with b2 := b }
  | 3 => { f with b3 := b }
  | 4 => { f with b4 := b }
  | 5 => { f with b5 := b }
  | 6 => { f with b6 := b }
  | 7 => { f with b7 := b }
  | _ => f

end Sys2Proof
end

