-- ==== Sys2Proof/Machine/Flags.lean ====
section
/-! DEFINITION. The three flags of the core (spec/10_state.md R23) and the operations that write them: `apply(RX, 6, Verify)`
(spec/40_crc_engine.md R84; 45_server_loop.md R143) and the outcome of `Configure` (spec/70_reset_and_hazards.md R174, R176).
Beside it mode Append, which writes no flag (R83). -/

namespace Sys2Proof.Machine

/-- R143: `apply(RX, 6, Verify)`. Writes `CRC_ACC` and `CRC_MATCH`; `RX` is not changed (R84). -/
def State.applyVerify (s : State) : State :=
  let o := crcApply s.rx.bytes Config.reqPayloadLen .verify
  { s with crcAcc := o.acc, crcMatch := o.isMatch.getD s.crcMatch }

/-- R144: `apply(TX, TX_LEN, Append)`, and `TX_LEN` grows by 2 (R83). Writes `CRC_ACC`, no flag. -/
def State.applyAppend (s : State) : State :=
  let o := crcApply s.tx s.txLen .append
  { s with crcAcc := o.acc, tx := o.buffer, txLen := s.txLen + 2, crcMatch := o.isMatch.getD s.crcMatch }

/-- R174: a well-formed configuration sets `CONFIGURED` and clears `CFG_ERROR` (R23). -/
def State.flagConfigured (s : State) : State := { s with configured := true, cfgError := false }

/-- R176: an ill-formed configuration sets `CFG_ERROR` and leaves `CONFIGURED = 0`. -/
def State.flagCfgError (s : State) : State := { s with configured := false, cfgError := true }

end Sys2Proof.Machine
end

