-- ==== Sys2Proof/Machine/Ops.lean ====
section
/-! DEFINITION. The named operations that every event and every request is written over: register storage, the response
buffer, outputs and results, the environment's activity inside a transaction, and the exception response, which is this
core's trap entry (spec/60_exceptions.md R155). -/

namespace Sys2Proof.Machine

/-! ## Register storage (R11, R45) -/

/-- The value last written to index `i`, if any. -/
def Memory.read : Memory → Nat → Option Word
  | [], _ => none
  | (j, w) :: m, i => if j = i then some w else Memory.read m i

/-- Index `i` written with `v`; every other index keeps its value, and rising indices stay rising. -/
def Memory.write : Memory → Nat → Word → Memory
  | [], i, v => [(i, v)]
  | (j, w) :: m, i, v =>
    if i < j then (i, v) :: (j, w) :: m
    else if i = j then (i, v) :: m
    else (j, w) :: Memory.write m i v

/-- The canonical form of register storage: strictly rising indices, each one a register address (R19: below 65536). -/
abbrev Memory.wf (m : Memory) : Prop :=
  m.Pairwise (fun a b => a.1 < b.1) ∧ ∀ c ∈ m, c.1 < Config.maxArraySize

/-- The array of a register kind. -/
def State.file (s : State) : RegKind → RegFile
  | .input => s.ir
  | .holding => s.hr

/-- The array of a register kind replaced. -/
def State.setFile (s : State) : RegKind → RegFile → State
  | .input, f => { s with ir := f }
  | .holding, f => { s with hr := f }

/-- `HR[i]` or `IR[i]` (R9, R46): one 16-bit read, without effect. A register that nobody has written holds the free value of
its array (R171, log entry 9). -/
def State.reg (s : State) (k : RegKind) (i : Nat) : Word :=
  match Memory.read (s.file k).cells i with
  | some v => v
  | none => Config.unseededRegister (s.file k).epoch k i

/-- `HR[i] <- v` or `IR[i] <- v` (R9, R45): one 16-bit write. -/
def State.setReg (s : State) (k : RegKind) (i : Nat) (v : Word) : State :=
  s.setFile k (RegFile.mk (s.file k).epoch (Memory.write (s.file k).cells i v))

/-- R96 `read_range(kind, start, count)`: all registers of the range in order, or `OutOfRange` (`none`). -/
def readRange (s : State) (k : RegKind) (start count : Nat) : Option (List Word) :=
  if s.inRange k start count then some ((List.range count).map fun i => s.reg k (start + i)) else none

/-- R97 `write_single(start, value)`: one holding register written, or `OutOfRange` (`none`). -/
def writeSingle (s : State) (start : Nat) (v : Word) : Option State :=
  if s.inRange .holding start 1 then some (s.setReg .holding start v) else none

/-! ## Outputs, results and the response buffer -/

/-- `emit E(args)` (R9). -/
def State.emit (s : State) (o : Output) : State := { s with out := s.out ++ [o] }

/-- R146: `RESULT <- r; emit Result(r)`. -/
def State.report (s : State) (r : Result) : State := { s with result := r, out := s.out ++ [.result r] }

/-- The result `(Idle, 0)` (R24). -/
def Result.idleResult : Result := Result.mk .idle 0

/-- The result `(NoAction, 0)` (R24, R134). -/
def Result.noActionResult : Result := Result.mk .noAction 0

/-- The result `(Written, v)` (R24, R134). -/
def Result.writtenResult (v : Word) : Result := Result.mk .written v

/-- `MemWrite(TX, at, n, bytes)` (R9). -/
def State.txWrite (s : State) (at_ : Nat) (bytes : List Byte) : State := { s with tx := memWrite s.tx at_ bytes }

/-- `TX_LEN <- n` (R26). -/
def State.setTxLen (s : State) (n : Nat) : State := { s with txLen := n }

/-- `TX[0 .. TX_LEN-1]` (R26). -/
def State.response (s : State) : List Byte := memRead s.tx 0 s.txLen

/-- R141 step 6: `PENDING_LEN <- 0; SYNC_STATE <- Idle`. -/
def State.toIdle (s : State) : State := { s with pendingLen := 0, syncState := .idle }

/-- R32: the status registers as the host finds them in this state. -/
def State.status (s : State) : Status := Status.mk s.syncState s.pendingLen s.result s.cfgError s.configured

/-- R121: the request latches. -/
def State.latch (s : State) (i : Instr) : State :=
  { s with reqFc := i.functionCode, reqFieldA := i.fieldA, reqFieldB := i.fieldB, reqKind := i.kind }

/-! ## Reset -/

/-- R170: every item of core state to its value of R31. The register arrays are not touched (R171), nothing is emitted, and
the environment's own fields are not core state. Log entries 5 and 11. -/
def State.coreReset (s : State) : State :=
  { s with
    syncState := .idle, pendingLen := 0, lastActivity := 0, rx := Frame.mk 0 0 0 0 0 0 0 0
    timeout := 0, deviceAddr := 0, inputCount := 0, holdingCount := 0, maxReadCount := 0
    readHookEn := false, writeHookEn := false, hookCtx := 0
    crcAcc := Config.crcSeed, crcMatch := false, cfgError := false, configured := false
    result := Result.idleResult, tx := List.replicate (txBufLen 0) 0, txLen := 0
    reqFc := 0, reqFieldA := 0, reqFieldB := 0, reqKind := .unknown }

/-! ## A transaction and what the environment does inside it (R51, R170) -/

/-- A transaction under way: it goes on from a state, was cut off by a `Reset` that left a state (R170), or met an access
the spec gives no meaning to. -/
inductive Txn where
  | run (s : State)
  | cut (s : State)
  | stop (r : Refusal)
  deriving DecidableEq, Repr

/-- The next action of a transaction: made only while the transaction runs ("the rest do not happen", R170). -/
def Txn.andThen (t : Txn) (f : State → Txn) : Txn :=
  match t with
  | .run s => f s
  | .cut s => .cut s
  | .stop r => .stop r

/-- The end of a transaction as an outcome of a step. -/
def Txn.outcome : Txn → Host.Outcome State Fault Refusal
  | .run s => .next s
  | .cut s => .next s
  | .stop r => .refused r

/-- R102: the host reads or writes one register of its own storage. Outside the storage the access has no meaning. R32: it samples
the status registers, which are outputs: nothing of the core changes. -/
def hostAccess (a : HostAccess) (s : State) : Txn :=
  match a with
  | .read k i =>
    if i < s.hostSize k then .run (s.emit (.hostValue k i (s.reg k i))) else .stop (.hostIndexOutOfRange k i)
  | .write k i v =>
    if i < s.hostSize k then .run (s.setReg k i v) else .stop (.hostIndexOutOfRange k i)
  | .sample => .run (s.emit (.hostStatus s.status))

/-- Host accesses one after another (R45, R51). -/
def hostAccesses : List HostAccess → State → Txn
  | [], s => .run s
  | a :: as, s => (hostAccess a s).andThen (hostAccesses as)

/-- A point between two actions of a transaction (R51): the environment's next gap is taken. Log entries 3 to 5. -/
def atGap (s : State) : Txn :=
  match s.gaps with
  | [] => .run s
  | g :: gs =>
    (hostAccesses g.accesses { s with gaps := gs }).andThen fun s =>
      if g.resets then .cut s.coreReset else .run s

/-! ## The end of every transaction (R141, R155) -/

/-- R141 steps 6 and 7, and the last two lines of its `Drop`: go to `Idle`, then report. Between the two the environment may act:
a sample there finds `Idle` and 0 beside the old `RESULT` (R32). -/
def conclude (r : Result) (s : State) : Txn := (atGap s.toIdle).andThen fun s => .run (s.report r)

/-- R141 steps 4 to 7 for a response body in `TX[0 .. TX_LEN-1]`: append the CRC, emit `TxFrame`, go to `Idle`, report. -/
def respond (r : Result) (s : State) : Txn :=
  (atGap s.applyAppend).andThen fun s =>
    (atGap (s.emit (.txFrame s.response))).andThen (conclude r)

/-- R155 `raise ModbusException(code)`: this core's trap entry. The three-byte body is built, nothing is saved, and the
transaction ends with the result `(NoAction, 0)`; there is no return from it (R161). -/
def raiseException (addr fc code : Byte) (s : State) : Txn :=
  respond Result.noActionResult ((s.txWrite 0 [addr, fc ||| 0x80, code]).setTxLen 3)

/-- R154: Illegal Function. -/
def illegalFunction : Byte := 0x01

/-- R154: Illegal Data Address. -/
def illegalDataAddress : Byte := 0x02

/-- R141 `Drop(reason)`: no output but the idle result, no register access. The reason is recorded nowhere (R146, R151). -/
def dropFrame (s : State) : Txn := conclude Result.idleResult s

/-- R120: `decode_and_route` of the request `i`: the latches are written, then the branch of R122 runs. -/
def transact (i : Instr) (branch : State → Txn) (s : State) : Host.Outcome State Fault Refusal :=
  (branch (s.latch i)).outcome

end Sys2Proof.Machine
end

