-- ==== Sys2Proof/Machine/Illegal.lean ====
section
/-! DEFINITION. Every other function code: `ILLFN` (spec/44_request_dispatcher.md R127). -/

namespace Sys2Proof.Machine

/-- R127 `ILLFN`: exception 0x01, before and instead of any range check (R156). The two fields are latched and ignored. -/
def execIllfn (addr fc : Byte) (a b : Word) (s : State) : Host.Outcome State Fault Refusal :=
  transact (.illfn addr fc a b) (raiseException addr fc illegalFunction) s

end Sys2Proof.Machine
end

