-- ==== Sys2Proof/Machine/Read.lean ====
section
/-! DEFINITION. The two read requests `RHR` and `RIR` (spec/44_request_dispatcher.md R123 to R125, R129, R131). -/

namespace Sys2Proof.Machine

/-- R123: the registers `a+i, a+i+1, …` (`n` of them) read in increasing order, one atomic read each, each placed low byte
first at `TX[3+2i]`. Before each read the environment may act (R51). -/
def readLoop (k : RegKind) (a : Nat) : Nat → Nat → State → Txn
  | 0, _, s => .run s
  | n + 1, i, s =>
    (atGap s).andThen fun s => readLoop k a n (i + 1) (s.txWrite (3 + 2 * i) (leBytes (s.reg k (a + i))))

/-- R131: the read observer, with the response body and without the CRC. -/
def readHook (s : State) : State :=
  if s.readHookEn then s.emit (.readEvent s.response s.hookCtx) else s

/-- R123 `ReadRegs(kind)`. Both failed checks give exception 0x02, before any register is read. -/
def readRegs (k : RegKind) (addr fc : Byte) (start count : Word) (s : State) : Txn :=
  let n := count.toNat
  if s.inRange k start.toNat n && n ≤ s.maxReadCount then
    (readLoop k start.toNat n 0 (s.txWrite 0 [addr, fc, BitVec.ofNat 8 (2 * n)])).andThen fun s =>
      (atGap (s.setTxLen (3 + 2 * n))).andThen fun s => respond Result.noActionResult (readHook s)
  else raiseException addr fc illegalDataAddress s

/-- R124 `RHR`: Read Holding Registers. -/
def execRhr (addr : Byte) (start count : Word) (s : State) : Host.Outcome State Fault Refusal :=
  transact (.rhr addr start count) (readRegs .holding addr 0x03 start count) s

/-- R125 `RIR`: Read Input Registers. -/
def execRir (addr : Byte) (start count : Word) (s : State) : Host.Outcome State Fault Refusal :=
  transact (.rir addr start count) (readRegs .input addr 0x04 start count) s

end Sys2Proof.Machine
end

