-- ==== Sys2Proof/Machine/Write.lean ====
section
/-! DEFINITION. The write request `WSR` (spec/44_request_dispatcher.md R126, R132). -/

namespace Sys2Proof.Machine

/-- R132: the pre-write observer, with all 8 bytes of the frame of the request (log entry 18). -/
def preWriteHook (i : Instr) (s : State) : State :=
  if s.writeHookEn then s.emit (.preWriteEvent (encode i).bytes s.hookCtx) else s

/-- R126: range check, observer, commit, echo. The environment may act before the observer event and between it and the
commit (R51, R132). -/
def writeReg (i : Instr) (s : State) : Txn :=
  if s.inRange .holding i.fieldA.toNat 1 then
    (atGap s).andThen fun s =>
      (atGap (preWriteHook i s)).andThen fun s =>
        respond (Result.writtenResult i.fieldB)
          (((s.setReg .holding i.fieldA.toNat i.fieldB).txWrite 0 i.body).setTxLen 6)
  else raiseException i.addr i.functionCode illegalDataAddress s

/-- R126 `WSR`: Write Single Register. -/
def execWsr (addr : Byte) (reg value : Word) (s : State) : Host.Outcome State Fault Refusal :=
  transact (.wsr addr reg value) (writeReg (.wsr addr reg value)) s

end Sys2Proof.Machine
end

