-- ==== Sys2Proof/Machine/Dispatch.lean ====
section
/-! DEFINITION. One arm per request (spec/44_request_dispatcher.md R122). -/

namespace Sys2Proof.Machine

/-- R122: "Branch on function code": each request goes to its own meaning. -/
def exec (i : Instr) (s : State) : Host.Outcome State Fault Refusal :=
  match i with
  | .rhr addr start count => Sys2Proof.Machine.execRhr addr start count s
  | .rir addr start count => Sys2Proof.Machine.execRir addr start count s
  | .wsr addr reg value => Sys2Proof.Machine.execWsr addr reg value s
  | .illfn addr fc a b => Sys2Proof.Machine.execIllfn addr fc a b s

end Sys2Proof.Machine
end

