-- ==== Sys2Proof/Machine/HostSide.lean ====
section
/-! DEFINITION. The events of the host: `Configure` (spec/70_reset_and_hazards.md R174 to R176), `Reset` (R170, in
Machine/Ops.lean), and the accesses to the register bank (spec/42_register_bank.md R99 to R102). -/

namespace Sys2Proof.Machine

/-- R174 "bind the register arrays": the array the configuration names. Log entry 10. -/
def bindArray (f : RegFile) : Supply → RegFile
  | .missing => f
  | .held => f
  | .fresh => RegFile.mk (f.epoch + 1) []

/-- R174: every configuration register loaded, the arrays bound, the response buffer given its size (R26). -/
def loadConfig (c : Cfg) (s : State) : State :=
  { s with
    timeout := c.timeout, deviceAddr := c.deviceAddr, inputCount := c.inputCount, holdingCount := c.holdingCount
    maxReadCount := c.maxReadCount, readHookEn := c.readHookEn, writeHookEn := c.writeHookEn, hookCtx := c.hookCtx
    ir := bindArray s.ir c.inputArray, hr := bindArray s.hr c.holdingArray
    tx := List.replicate (txBufLen c.maxReadCount) 0 }

/-- Event `Configure(cfg)` (R174, R176), enabled only directly after `Reset`. -/
def configure (c : Cfg) (s : State) : Host.Outcome State Fault Refusal :=
  if s.configured || s.cfgError then .refused .configureNotEnabled
  else if c.wf s.tw then .next (loadConfig c s).flagConfigured
  else .next s.flagCfgError

/-- R100: the values written from `start` on, in increasing order, one atomic write each. -/
def loadValues (k : RegKind) : Nat → List Word → State → State
  | _, [], s => s
  | i, v :: vs, s => loadValues k (i + 1) vs (s.setReg k i v)

/-- R100 `bulk_load(kind, start, values)`: into the bank, or nothing at all when any part is out of range. `start` and the length
are any naturals, and the one check is R98's sum (log entry 27). -/
def bulkLoad (k : RegKind) (start : Nat) (values : List Word) (s : State) : State :=
  if s.inRange k start values.length then loadValues k start values s else s

/-- R101 `bulk_store(kind, start, out)` with `n` the length of `out`: out of the bank, or nothing at all. `start` and `n` are any
naturals (log entry 27). -/
def bulkStore (k : RegKind) (start n : Nat) (s : State) : State :=
  match readRange s k start n with
  | some values => s.emit (.hostValues k start values)
  | none => s

/-- The bulk events: they are checked against sizes that exist only after `Configure` (C12). Log entry 8. -/
def whenSized (f : State → State) (s : State) : Host.Outcome State Fault Refusal :=
  if s.configured then .next (f s) else .refused .sizesNotConfigured

end Sys2Proof.Machine
end

