-- ==== Sys2Proof/Machine/Sync.lean ====
section
/-! DEFINITION. The frame synchronizer: the events `RxByte` and `Poll` (spec/43_frame_synchronizer.md R106 to R115). -/

namespace Sys2Proof.Machine

/-- A time the environment supplies is a `TW`-bit number (R7, R107): higher bits do not exist. -/
def State.time (s : State) (now : Nat) : Nat := now % 2 ^ s.tw

/-- R109: the first byte of a frame. -/
def firstByte (b : Byte) (now : Nat) (s : State) : State :=
  { s with rx := s.rx.set 0 b, pendingLen := 1, lastActivity := s.time now, syncState := .accumulating }.report
    Result.idleResult

/-- R110, R111: a further byte. The eighth one makes the frame ready and reports nothing. -/
def nextByte (b : Byte) (now : Nat) (s : State) : State :=
  let t := { s with rx := s.rx.set s.pendingLen b, pendingLen := s.pendingLen + 1, lastActivity := s.time now }
  if s.pendingLen + 1 = Config.reqLen then { t with syncState := .frameReady }
  else { t with syncState := .accumulating }.report Result.idleResult

/-- R110, R113, R151: the pending bytes are discarded. Only `PENDING_LEN` says so (R25). -/
def discardPending (s : State) : State := s.toIdle

/-- Event `RxByte(b, now)` (R109 to R111, R114), enabled only when configured (R174). -/
def rxByte (b : Byte) (now : Nat) (s : State) : Host.Outcome State Fault Refusal :=
  if s.configured then
    match s.syncState with
    | .idle => .next (firstByte b now s)
    | .accumulating => if s.timedOut now then .next (firstByte b now (discardPending s)) else .next (nextByte b now s)
    | .frameReady => .refused .rxByteNotEnabled
  else .refused .rxByteNotEnabled

/-- Event `Poll(now)` (R112 to R114), enabled only when configured (R174). -/
def poll (now : Nat) (s : State) : Host.Outcome State Fault Refusal :=
  if s.configured then
    match s.syncState with
    | .idle => .next (s.report Result.idleResult)
    | .accumulating =>
      if s.timedOut now then .next ({ discardPending s with lastActivity := s.time now }.report Result.idleResult)
      else .next (s.report Result.idleResult)
    | .frameReady => .refused .pollNotEnabled
  else .refused .pollNotEnabled

/-- R117: a `try_read` at time `now` that returned these bytes, as events: a poll if it returned none. -/
def tryRead (bytes : List Byte) (now : Nat) : List Event :=
  match bytes with
  | [] => [.poll now]
  | b :: bs => (b :: bs).map fun x => .rxByte x now

end Sys2Proof.Machine
end

