-- ==== Sys2Proof/Machine/Server.lean ====
section
/-! DEFINITION. The server loop: the event `Process` (spec/45_server_loop.md R141 to R146), one step of the whole machine
(R140), and the placing of one request where the next step takes it. -/

namespace Sys2Proof.Machine

/-- R141 steps 1 and 2, then the request. The address test comes before the CRC test (R142), a frame that fails either is
dropped, and only a frame that passes both is decoded (R68). -/
def filterAndRun (s : State) : Host.Outcome State Fault Refusal :=
  if s.rx.b0 ≠ s.deviceAddr then (dropFrame s).outcome
  else
    let t := s.applyVerify
    if t.crcMatch then exec (decode t.rx) t else (dropFrame t).outcome

/-- R141: event `Process`. The environment may act before its first action (R51, R114). -/
def process (s : State) : Host.Outcome State Fault Refusal :=
  match atGap s with
  | .run s => filterAndRun s
  | .cut s => .next s
  | .stop r => .refused r

/-- One event of the environment (R7). -/
def handle (e : Event) (s : State) : Host.Outcome State Fault Refusal :=
  match e with
  | .reset => .next s.coreReset
  | .configure c => configure c s
  | .rxByte b now => rxByte b now s
  | .poll now => poll now s
  | .hostRead k i => (hostAccess (.read k i) s).outcome
  | .hostWrite k i v => (hostAccess (.write k i v) s).outcome
  | .bulkLoad k start values => whenSized (bulkLoad k start values) s
  | .bulkStore k start n => whenSized (bulkStore k start n) s
  | .hostSample => (hostAccess .sample s).outcome

/-- `Process` is enabled exactly when a configured core holds a complete frame (R141, R174). -/
def State.processEnabled (s : State) : Bool := s.configured && s.syncState == .frameReady

/-- One step. A ready frame is processed before any further event is taken (R114, R149); otherwise the environment's next
event is taken; without one the core does nothing (R168, R185). Log entries 1 and 3. -/
def machineStep (s : State) : Host.Outcome State Fault Refusal :=
  if s.processEnabled then process s
  else
    match s.inputs with
    | [] => .next s
    | e :: es => handle e { s with inputs := es }

/-- The configuration under which a placed request runs on a core that has none: the largest arrays, the default read limit,
the longest timeout, no observer. Log entry 19. -/
def launchCfg (tw : Nat) (addr : Byte) : Cfg where
  timeout := 2 ^ tw - 1
  deviceAddr := addr
  inputCount := Config.maxArraySize
  holdingCount := Config.maxArraySize
  maxReadCount := Config.defaultMaxReadCount
  readHookEn := false
  writeHookEn := false
  hookCtx := 0
  inputArray := .held
  holdingArray := .held
  byteSource := true
  byteSink := true

/-- The request `i` placed where the next step takes it: a configured core with the request's address that holds the
request's frame complete, and no environment activity inside the transaction. Log entry 19. -/
def placeRequest (s : State) (i : Instr) : State :=
  let t := if s.configured then s else (loadConfig (launchCfg s.tw i.addr) s).flagConfigured
  { t with rx := encode i, pendingLen := Config.reqLen, syncState := .frameReady, deviceAddr := i.addr, gaps := [] }

/-- `placeRequest` for a number of the opcode table. -/
def placeTableWord (s : State) (nbits w : Nat) : State :=
  match decodeTableWord nbits w with
  | some i => placeRequest s i
  | none => s

end Sys2Proof.Machine
end

