-- ==== Sys2Proof/Machine/Step.lean ====
section
/-! DEFINITION. The step of the machine, and the placing of an instruction for it (Machine/Server.lean holds both). -/

namespace Sys2Proof.Machine

/-- One step (R7, R140): one `Process`, or one event of the environment. -/
def step (s : State) : Host.Outcome State Fault Refusal := machineStep s

/-- `s` with the request that the opcode table's number `w` stands for held complete in `RX`, so that the next step runs it.
Log entry 19. -/
def State.withFetchWord (s : State) (nbits w : Nat) : State := placeTableWord s nbits w

end Sys2Proof.Machine
end

