-- ==== Sys2Proof/Safety.lean ====
section
/-! DEFINITION. The terms claims are stated in: the premises on the environment that the spec itself names
(spec/20_memory.md R51), the invariants of the machine (spec/43_frame_synchronizer.md R119; 10_state.md), and the timed byte
streams of spec/43_frame_synchronizer.md R118. -/

namespace Sys2Proof.Machine

/-! ## Premises on what the environment does inside a transaction -/

/-- R51: "no host event occurs between the start and the end of a `Process` step". -/
abbrev State.quiet (s : State) : Prop := s.gaps = []

/-- No `Reset` falls inside a coming transaction (R170). -/
abbrev State.noResets (s : State) : Prop := ∀ g ∈ s.gaps, g.resets = false

/-- A host access that names a register names one of the host's own storage (R102); a sample names none (R32). -/
def State.admits (s : State) : HostAccess → Bool
  | .read k i => decide (i < s.hostSize k)
  | .write k i _ => decide (i < s.hostSize k)
  | .sample => true

/-- Every host access inside a coming transaction is one that the spec gives a meaning to (R102). -/
abbrev State.gapsInRange (s : State) : Prop := ∀ g ∈ s.gaps, ∀ a ∈ g.accesses, s.admits a = true

/-- The host only samples inside the coming transactions: it touches no register and there is no `Reset` (R32). -/
abbrev State.onlySampled (s : State) : Prop := ∀ g ∈ s.gaps, g.resets = false ∧ ∀ a ∈ g.accesses, a = .sample

/-- The host writes register `i` of the array `k` inside some coming transaction (R51). -/
def State.hostWrites (s : State) (k : RegKind) (i : Nat) : Prop :=
  ∃ g ∈ s.gaps, ∃ v, HostAccess.write k i v ∈ g.accesses

/-- What a register holds after the host accesses of one gap, given what it held before (R49: the latest write). -/
def valueAfter (k : RegKind) (i : Nat) : List HostAccess → Word → Word
  | [], v => v
  | .read _ _ :: as, v => valueAfter k i as v
  | .write k' i' w :: as, v => valueAfter k i as (if k' = k ∧ i' = i then w else v)
  | .sample :: as, v => valueAfter k i as v

/-- What register `i` of the array `k` holds once the host has acted at the next `n` points (R51). -/
def State.regAfterGaps (s : State) (k : RegKind) (i n : Nat) : Word :=
  valueAfter k i ((s.gaps.take n).flatMap Gap.accesses) (s.reg k i)

/-- What the host gets from its own accesses, in order: one answer to each read (R102) and to each sample (R32). -/
def answers (s : State) : List HostAccess → List Output
  | [] => []
  | .read k i :: as => .hostValue k i (s.reg k i) :: answers s as
  | .write k i v :: as => answers (s.setReg k i v) as
  | .sample :: as => .hostStatus s.status :: answers s as

/-- A point at which the host does nothing. -/
abbrev Gap.still : Gap := Gap.mk [] false

/-- A point at which a `Reset` falls and the host does nothing (R170). -/
abbrev Gap.resetting : Gap := Gap.mk [] true

/-- A point at which the host samples the status registers once (R32). -/
abbrev Gap.sampling : Gap := Gap.mk [.sample] false

/-! ## What claims say of a core after `Reset` -/

/-- The values that R31 and R170 name. What R31 calls unspecified is not claimed. -/
structure State.HasResetValues (s : State) : Prop where
  syncState : s.syncState = .idle
  pendingLen : s.pendingLen = 0
  lastActivity : s.lastActivity = 0
  readHookEn : s.readHookEn = false
  writeHookEn : s.writeHookEn = false
  crcAcc : s.crcAcc = 0xFFFF
  crcMatch : s.crcMatch = false
  cfgError : s.cfgError = false
  configured : s.configured = false
  result : s.result = Result.mk .idle 0
  txLen : s.txLen = 0

/-- `t` is what a `Reset` inside a transaction of `s` leaves (R170, R171), the outputs and the registers apart: the values of R31,
the events of the queue as they were, the host activity `gs` still to come. -/
structure CutByReset (s t : State) (gs : List Gap) : Prop where
  values : t.HasResetValues
  inputs : t.inputs = s.inputs
  gaps : t.gaps = gs
  tw : t.tw = s.tw

/-! ## Which requests are refused -/

/-- R156 and the complete list of R157: the exception code that a request gets, if any. -/
def State.refusalCode (s : State) : Instr → Option Byte
  | .rhr _ start count =>
    if s.holdingCount < start.toNat + count.toNat ∨ s.maxReadCount < count.toNat then some 0x02 else none
  | .rir _ start count =>
    if s.inputCount < start.toNat + count.toNat ∨ s.maxReadCount < count.toNat then some 0x02 else none
  | .wsr _ reg _ => if s.holdingCount < reg.toNat + 1 then some 0x02 else none
  | .illfn _ _ _ _ => some 0x01

/-- The number of points inside a request at which the environment may act (log entry 4), the point before the first action of
`Process` apart: the last three are before the transmission, behind it, and between R141 steps 6 and 7. -/
def State.points (s : State) (i : Instr) : Nat :=
  match s.refusalCode i, i with
  | some _, _ => 3
  | none, .rhr _ _ count => count.toNat + 4
  | none, .rir _ _ count => count.toNat + 4
  | none, .wsr _ _ _ => 5
  | none, .illfn _ _ _ _ => 3

/-! ## The frames and bytes of claims -/

/-- A body and its CRC, low byte first (R64, R65, R67): a whole response. -/
def withCrc (body : List Byte) : List Byte := body ++ leBytes (crc16 body)

/-- The payload of a read of `n` registers from `a` on (R64): low byte first, in request order. -/
def readPayload (s : State) (k : RegKind) (a n : Nat) : List Byte :=
  (List.range n).flatMap fun i => leBytes (s.reg k (a + i))

/-- The body of a read response (R64). -/
def readBody (s : State) (k : RegKind) (addr fc : Byte) (a n : Nat) : List Byte :=
  [addr, fc, BitVec.ofNat 8 (2 * n)] ++ readPayload s k a n

/-- The body of an exception response (R67). -/
def exceptionBody (addr fc code : Byte) : List Byte := [addr, fc ||| 0x80, code]

/-- The configuration registers and `TW` hold the same in `t` as in `s` (R17 to R21). -/
structure SameConfig (s t : State) : Prop where
  timeout : t.timeout = s.timeout
  deviceAddr : t.deviceAddr = s.deviceAddr
  inputCount : t.inputCount = s.inputCount
  holdingCount : t.holdingCount = s.holdingCount
  maxReadCount : t.maxReadCount = s.maxReadCount
  readHookEn : t.readHookEn = s.readHookEn
  writeHookEn : t.writeHookEn = s.writeHookEn
  hookCtx : t.hookCtx = s.hookCtx
  tw : t.tw = s.tw

/-! ## Invariants -/

/-- R119: the relation of `SYNC_STATE` and `PENDING_LEN`. -/
structure State.SyncInv (s : State) : Prop where
  idle_iff : s.syncState = .idle ↔ s.pendingLen = 0
  accumulating_iff : s.syncState = .accumulating ↔ 1 ≤ s.pendingLen ∧ s.pendingLen ≤ 7
  frameReady_iff : s.syncState = .frameReady ↔ s.pendingLen = 8

/-- What a configured core's configuration registers satisfy (R6, R17 to R20). -/
structure State.CfgInv (s : State) : Prop where
  noError : s.cfgError = false
  inputCount : 1 ≤ s.inputCount ∧ s.inputCount ≤ Config.maxArraySize
  holdingCount : 1 ≤ s.holdingCount ∧ s.holdingCount ≤ Config.maxArraySize
  maxReadCount : 1 ≤ s.maxReadCount ∧ s.maxReadCount ≤ Config.maxReadBound
  timeout : 1 ≤ s.timeout ∧ s.timeout < 2 ^ s.tw

/-- The invariant of the machine: R119, the ranges of the registers (R15 to R20, R24, R26), an unconfigured core waits in
`Idle` (R174), `TX` has its size (R26, R66; for `MAX_READ_COUNT = 1` one byte more once a write has been answered, log entry
14) and the response is within it (R83), and register storage is in canonical form. -/
structure State.Inv (s : State) : Prop where
  sync : s.SyncInv
  lastActivity : s.lastActivity < 2 ^ s.tw
  cfg : s.configured = true → s.CfgInv
  unconfigured : s.configured = false → s.syncState = .idle ∧ s.txLen = 0
  txSize : s.tx.length = txBufLen s.maxReadCount ∨ (s.maxReadCount = 1 ∧ s.tx.length = 8)
  txLen : s.txLen ≤ s.tx.length
  result : s.result.kind ≠ .written → s.result.value = 0
  hr : Memory.wf s.hr.cells
  ir : Memory.wf s.ir.cells

/-! ## Runs -/

/-- A safe step is one the spec gives a meaning to: it answers a next state. -/
def State.stepSafe (s : State) : Prop := ∃ t, step s = .next t

/-- The outputs that put a frame on the wire (R145). -/
def Output.isTxFrame : Output → Bool
  | .txFrame _ => true
  | .readEvent _ _ => false
  | .preWriteEvent _ _ => false
  | .result _ => false
  | .hostValue _ _ _ => false
  | .hostValues _ _ _ => false
  | .hostStatus _ => false

/-- The outputs that answer a sample of the status registers (R32). -/
def Output.isSample : Output → Bool
  | .hostStatus _ => true
  | .txFrame _ => false
  | .readEvent _ _ => false
  | .preWriteEvent _ _ => false
  | .result _ => false
  | .hostValue _ _ _ => false
  | .hostValues _ _ _ => false

/-- The next state of an outcome, if there is one. -/
def nextOf : Host.Outcome State Fault Refusal → Option State
  | .next s => some s
  | .fault _ => none
  | .refused _ => none

/-- A byte stream of `RxByte` and `Poll` events in which every event comes within `timeout` of the last byte (R118 (a)), given
the time of the last byte before it. -/
def Timely (tw timeout : Nat) : Nat → List Event → Prop
  | _, [] => True
  | last, .rxByte _ now :: es => elapsed tw now last < timeout ∧ Timely tw timeout (now % 2 ^ tw) es
  | last, .poll now :: es => elapsed tw now last < timeout ∧ Timely tw timeout last es
  | _, _ :: _ => False

/-- The bytes of a stream of events, in order. -/
def arrivals : List Event → List Byte
  | [] => []
  | .rxByte b _ :: es => b :: arrivals es
  | _ :: es => arrivals es

end Sys2Proof.Machine
end

