-- ==== Sys2Proof/Certificates/Slice0/Obligations.lean ====
section
/-! DEFINITION. The statements for the provers. Each docstring names the rules of spec/ that the statement formalises, and the
model's own choices it rests on, by log entry of notes/assumptions. -/

open Sys2Proof Sys2Proof.Machine

/-! ## Reset and configuration -/

/-- R31, R170: the values the spec names for reset (its decision D20). The values R31 calls unspecified are not claimed. -/
def Obligations.ResetLeavesTheStatedValues : Prop :=
  State.reset.syncState = .idle ∧ State.reset.pendingLen = 0 ∧ State.reset.lastActivity = 0 ∧
  State.reset.readHookEn = false ∧ State.reset.writeHookEn = false ∧ State.reset.crcAcc = 0xFFFF ∧
  State.reset.crcMatch = false ∧ State.reset.cfgError = false ∧ State.reset.configured = false ∧
  State.reset.result = Result.mk .idle 0 ∧ State.reset.txLen = 0

/-- R170, R171: `Reset` in every state. As the next event: core state to the values of R31, the register arrays untouched,
nothing emitted. While a frame is ready, before the first action of `Process`: the same after the host's accesses and samples (R32)
at that point, and no frame is sent. Between the last two lines of R141's `Drop`, for either reason: nothing is out, no result is
reported and no register has changed (decisions D20, D32; log entries 1, 3, 4 and 5 for the queue of events and the points;
statements O3, O57 and O58 have the points inside a request). -/
def Obligations.ResetEventRestoresCoreState : Prop :=
  (∀ (s : State) (es : List Event), s.inputs = .reset :: es → s.processEnabled = false →
    ∃ t, step s = .next t ∧ t.HasResetValues ∧
      t.hr = s.hr ∧ t.ir = s.ir ∧ t.out = s.out ∧ t.inputs = es ∧ t.gaps = s.gaps ∧ t.tw = s.tw) ∧
  (∀ (s : State) (as : List HostAccess) (gs : List Gap), s.configured = true → s.syncState = .frameReady →
    s.gaps = Gap.mk as true :: gs → (∀ a ∈ as, s.admits a = true) →
    ∃ t, step s = .next t ∧ CutByReset s t gs ∧
      (∀ k j, t.reg k j = valueAfter k j as (s.reg k j)) ∧ t.out = s.out ++ answers s as) ∧
  (∀ (s : State) (gs : List Gap), s.configured = true → s.syncState = .frameReady → s.gaps = .still :: .resetting :: gs →
    s.rx.b0 ≠ s.deviceAddr ∨ s.rx.crcField ≠ crc16 s.rx.body →
    ∃ t, step s = .next t ∧ CutByReset s t gs ∧ (∀ k j, t.reg k j = s.reg k j) ∧ t.out = s.out)

/-- R170: a `Reset` between two actions of a write transaction, with the observer and without it. What was done stays done and the
rest does not happen: before the observer event nothing is done; before the commit only the event is out; after the commit the
register keeps the new value but no response leaves; after the transmission, before R141 step 6 and between steps 6 and 7, the
response is out but no result is reported (decisions D17, D32; log entries 3 to 5 for where the environment acts; that the event carries the request's own encoding is
log entry 18). -/
def Obligations.ResetInsideAWriteKeepsDoneActions : Prop :=
  ∀ (s : State) (addr : Byte) (a v : Word) (gs : List Gap), a.toNat + 1 ≤ s.holdingCount →
    let i := Instr.wsr addr a v
    let event := if s.writeHookEn then [Output.preWriteEvent (encode i).bytes s.hookCtx] else []
    (s.gaps = .resetting :: gs →
      ∃ t, exec i s = .next t ∧ CutByReset s t gs ∧ t.out = s.out ∧ ∀ k j, t.reg k j = s.reg k j) ∧
    (s.gaps = .still :: .resetting :: gs →
      ∃ t, exec i s = .next t ∧ CutByReset s t gs ∧ t.out = s.out ++ event ∧ ∀ k j, t.reg k j = s.reg k j) ∧
    (s.gaps = .still :: .still :: .resetting :: gs →
      ∃ t, exec i s = .next t ∧ CutByReset s t gs ∧ t.out = s.out ++ event ∧ t.reg .holding a.toNat = v ∧
        ∀ k j, ¬(k = .holding ∧ j = a.toNat) → t.reg k j = s.reg k j) ∧
    (s.gaps = .still :: .still :: .still :: .resetting :: gs →
      ∃ t, exec i s = .next t ∧ CutByReset s t gs ∧ t.out = s.out ++ event ++ [.txFrame (withCrc i.body)] ∧
        t.reg .holding a.toNat = v ∧ ∀ k j, ¬(k = .holding ∧ j = a.toNat) → t.reg k j = s.reg k j) ∧
    (s.gaps = .still :: .still :: .still :: .still :: .resetting :: gs →
      ∃ t, exec i s = .next t ∧ CutByReset s t gs ∧ t.out = s.out ++ event ++ [.txFrame (withCrc i.body)] ∧
        t.reg .holding a.toNat = v ∧ ∀ k j, ¬(k = .holding ∧ j = a.toNat) → t.reg k j = s.reg k j)

/-- R174: `Configure` with a well-formed configuration, directly after `Reset`: every configuration register loaded,
`CONFIGURED` set, `CFG_ERROR` clear, the held arrays bound as they are (decision D19; log entry 10). -/
def Obligations.WellFormedConfigureLoads : Prop :=
  ∀ (s : State) (c : Cfg) (es : List Event), s.inputs = .configure c :: es → s.configured = false → s.cfgError = false →
    c.wf s.tw = true →
    ∃ t, step s = .next t ∧
      t.timeout = c.timeout ∧ t.deviceAddr = c.deviceAddr ∧ t.inputCount = c.inputCount ∧
      t.holdingCount = c.holdingCount ∧ t.maxReadCount = c.maxReadCount ∧ t.readHookEn = c.readHookEn ∧
      t.writeHookEn = c.writeHookEn ∧ t.hookCtx = c.hookCtx ∧ t.configured = true ∧ t.cfgError = false ∧
      (c.inputArray = .held → t.ir = s.ir) ∧ (c.holdingArray = .held → t.hr = s.hr) ∧
      t.syncState = s.syncState ∧ t.pendingLen = s.pendingLen ∧ t.result = s.result ∧ t.out = s.out ∧ t.inputs = es

/-- R176, R158: `Configure` with an ill-formed configuration, directly after `Reset`: `CFG_ERROR` set, `CONFIGURED` clear and
nothing else changed (decision D19). -/
def Obligations.IllFormedConfigureLoadsNothing : Prop :=
  ∀ (s : State) (c : Cfg) (es : List Event), s.inputs = .configure c :: es → s.configured = false → s.cfgError = false →
    c.wf s.tw = false → step s = .next { s with inputs := es, cfgError := true }

/-- R6, R176: which configurations are ill-formed: an array missing or of no register or of more than 65536 (log entry 15),
`MAX_READ_COUNT` outside 1..127, `TIMEOUT` outside 1..2^TW-1, a byte source or sink missing (decisions D6, D12, D21). -/
def Obligations.ConfigurationWellFormedness : Prop :=
  ∀ (tw : Nat) (c : Cfg), c.wf tw = true ↔
    (1 ≤ c.inputCount ∧ c.inputCount ≤ 65536) ∧ (1 ≤ c.holdingCount ∧ c.holdingCount ≤ 65536) ∧
    c.inputArray ≠ .missing ∧ c.holdingArray ≠ .missing ∧ (1 ≤ c.maxReadCount ∧ c.maxReadCount ≤ 127) ∧
    (1 ≤ c.timeout ∧ c.timeout < 2 ^ tw) ∧ c.byteSource = true ∧ c.byteSink = true

/-- R174, R175, R176: what an unconfigured core does not take (`RxByte`, `Poll`), and that `Configure` is taken only directly
after `Reset`. The core's refusals are log entry 6. -/
def Obligations.EventsNotEnabledAreRefused : Prop :=
  (∀ (s : State) (b : Byte) (now : Nat) (es : List Event), s.inputs = .rxByte b now :: es → s.configured = false →
    step s = .refused .rxByteNotEnabled) ∧
  (∀ (s : State) (now : Nat) (es : List Event), s.inputs = .poll now :: es → s.configured = false →
    step s = .refused .pollNotEnabled) ∧
  (∀ (s : State) (c : Cfg) (es : List Event), s.inputs = .configure c :: es → s.processEnabled = false →
    (s.configured = true ∨ s.cfgError = true) → step s = .refused .configureNotEnabled)

/-- R175, R30: the configuration is constant from `Configure` to the next `Reset`: every step of a configured core that takes no
`Reset`, as its event or inside a transaction, keeps every configuration register (decision D30). -/
def Obligations.ConfigurationConstantWhileRunning : Prop :=
  ∀ (s t : State), s.configured = true → s.noResets → (s.syncState = .frameReady ∨ ∀ es, s.inputs ≠ .reset :: es) →
    step s = .next t →
    SameConfig s t ∧ t.configured = true ∧ t.cfgError = s.cfgError

/-! ## The frame synchronizer -/

/-- R107: the elapsed time of a `TW`-bit counter that runs freely: when `d` ticks have truly passed since the time `last`,
`elapsed` is `d` modulo `2^TW`, whether or not the counter wrapped in between and whatever `TW` is; below `2^TW` ticks it is the
true time, from there on it aliases. -/
def Obligations.ElapsedIsTheTrueTime : Prop :=
  ∀ (tw last d : Nat),
    elapsed tw ((last + d) % 2 ^ tw) (last % 2 ^ tw) = d % 2 ^ tw ∧
    (d < 2 ^ tw → elapsed tw ((last + d) % 2 ^ tw) (last % 2 ^ tw) = d)

/-- R109: `RxByte` in `Idle`. -/
def Obligations.FirstByteStartsAFrame : Prop :=
  ∀ (s : State) (b : Byte) (now : Nat) (es : List Event), s.inputs = .rxByte b now :: es → s.configured = true →
    s.syncState = .idle → now < 2 ^ s.tw →
    step s = .next { s with
      inputs := es, rx := { s.rx with b0 := b }, pendingLen := 1, lastActivity := now, syncState := .accumulating,
      result := Result.mk .idle 0, out := s.out ++ [.result (Result.mk .idle 0)] }

/-- R110 (the branch in time), R111: a further byte is appended; the eighth makes the frame ready and reports nothing
(decision D3: the timeout is evaluated at the byte). -/
def Obligations.TimelyByteIsAppended : Prop :=
  ∀ (s : State) (b : Byte) (now : Nat) (es : List Event), s.inputs = .rxByte b now :: es → s.configured = true →
    s.syncState = .accumulating → now < 2 ^ s.tw → elapsed s.tw now s.lastActivity < s.timeout →
    (s.pendingLen = 7 → step s = .next { s with
      inputs := es, rx := { s.rx with b7 := b }, pendingLen := 8, lastActivity := now, syncState := .frameReady }) ∧
    (s.pendingLen < 7 → step s = .next { s with
      inputs := es, rx := s.rx.set s.pendingLen b, pendingLen := s.pendingLen + 1, lastActivity := now,
      result := Result.mk .idle 0, out := s.out ++ [.result (Result.mk .idle 0)] })

/-- R25, R110: `RX[i] <- b` for the indices a frame has: byte `i` is `b`, every other byte is kept. -/
def Obligations.ReceiveBufferWritesOneByte : Prop :=
  ∀ (f : Frame) (i : Nat) (b : Byte), i < 8 → (f.set i b).bytes = f.bytes.set i b

/-- R110 (the timeout branch), R151: a byte that comes `TIMEOUT` or more after the last one starts a new frame; the old bytes
are discarded (decision D3; that their cells keep their values is log entry 26). -/
def Obligations.LateByteStartsANewFrame : Prop :=
  ∀ (s : State) (b : Byte) (now : Nat) (es : List Event), s.inputs = .rxByte b now :: es → s.configured = true →
    s.syncState = .accumulating → now < 2 ^ s.tw → s.timeout ≤ elapsed s.tw now s.lastActivity →
    step s = .next { s with
      inputs := es, rx := { s.rx with b0 := b }, pendingLen := 1, lastActivity := now,
      result := Result.mk .idle 0, out := s.out ++ [.result (Result.mk .idle 0)] }

/-- R112: `Poll` in `Idle` changes no synchronizer state; it reports `(Idle, 0)`. -/
def Obligations.PollInIdleHasNoSideEffect : Prop :=
  ∀ (s : State) (now : Nat) (es : List Event), s.inputs = .poll now :: es → s.configured = true → s.syncState = .idle →
    step s = .next { s with
      inputs := es, result := Result.mk .idle 0, out := s.out ++ [.result (Result.mk .idle 0)] }

/-- R113: `Poll` in `Accumulating`: the timeout fires at an elapsed time of exactly `TIMEOUT` and above (C4); below, nothing but
the report (decision D4; that the discarded bytes of `RX` keep their cells, which D29 leaves unspecified, is log entry 26). -/
def Obligations.PollFiresTheTimeout : Prop :=
  ∀ (s : State) (now : Nat) (es : List Event), s.inputs = .poll now :: es → s.configured = true →
    s.syncState = .accumulating → now < 2 ^ s.tw →
    (s.timeout ≤ elapsed s.tw now s.lastActivity → step s = .next { s with
      inputs := es, pendingLen := 0, syncState := .idle, lastActivity := now,
      result := Result.mk .idle 0, out := s.out ++ [.result (Result.mk .idle 0)] }) ∧
    (elapsed s.tw now s.lastActivity < s.timeout → step s = .next { s with
      inputs := es, result := Result.mk .idle 0, out := s.out ++ [.result (Result.mk .idle 0)] })

/-- R114, R149: a configured core that holds a complete frame takes no event: the step is `Process`, and the bytes behind it
wait where they are (decision D8; that they wait in a queue of the model is log entries 1 and 3). -/
def Obligations.EventsWaitWhileAFrameIsReady : Prop :=
  ∀ (s t : State), s.configured = true → s.syncState = .frameReady → step s = .next t → t.inputs = s.inputs

/-- R119: every step keeps the relation of `SYNC_STATE` and `PENDING_LEN`. -/
def Obligations.StepKeepsSynchronizerRelation : Prop :=
  ∀ (s t : State), s.SyncInv → step s = .next t → t.SyncInv

/-- R118 (a), over the model's runs: from `Idle`, eight bytes with gaps below `TIMEOUT`, with any number of polls between them,
lead to `FrameReady` with `RX` holding the eight bytes in order, and put nothing on the wire on the way. -/
def Obligations.TimelyBytesAssembleOneFrame : Prop :=
  ∀ (s : State) (b0 b7 : Byte) (t0 t7 : Nat) (es rest : List Event), s.configured = true → s.syncState = .idle →
    s.inputs = .rxByte b0 t0 :: (es ++ .rxByte b7 t7 :: rest) →
    Timely s.tw s.timeout (t0 % 2 ^ s.tw) (es ++ [.rxByte b7 t7]) → (arrivals es).length = 6 →
    ∃ t, Host.Core.run core (es.length + 2) s = .next t ∧ t.syncState = .frameReady ∧ t.pendingLen = 8 ∧
      t.rx.bytes = b0 :: arrivals es ++ [b7] ∧ t.lastActivity = t7 % 2 ^ s.tw ∧ t.inputs = rest ∧
      t.hr = s.hr ∧ t.ir = s.ir ∧ t.out.filter Output.isTxFrame = s.out.filter Output.isTxFrame

/-! ## The invariant of the machine -/

/-- The invariant holds after reset. It takes in R119 and the register ranges of R15 to R20 and R24. The clauses on `TX` rest on
the model's choices: the five zero bytes of `TX` and the 0 of `MAX_READ_COUNT` at reset are log entry 11, the size that `TX` may
have is R66 as log entry 14 reads it. -/
def Obligations.ResetMeetsTheInvariant : Prop := State.reset.Inv

/-- Every step keeps the invariant: R119; the ranges of the registers (R15 to R20, R24); a core without configuration waits in
`Idle` (R174); `TX` keeps the size of R66 (for `MAX_READ_COUNT = 1` one byte more once a write has been answered, log entry 14)
and the response stays within it (R83); register storage stays in canonical form (log entry 12). -/
def Obligations.StepKeepsTheInvariant : Prop := ∀ (s t : State), s.Inv → step s = .next t → t.Inv

/-! ## Requests as bytes -/

/-- R60, R62, R68, R73: the decoder gives every well-formed request back from its frame (decisions D25, D27; that the CRC is no
operand is log entry 18). -/
def Obligations.DecodeOfEncodeIsTheRequest : Prop := ∀ (i : Instr), i.wf = true → decode (encode i) = i

/-- R60, R84: a frame whose CRC bytes verify is the frame of the request it decodes to, byte for byte; and the decoder answers
only well-formed requests. So the response echo (R65) and the pre-write event (R132) carry the received bytes. -/
def Obligations.VerifiedFrameIsItsRequest : Prop :=
  ∀ (f : Frame), (decode f).wf = true ∧ (f.crcField = crc16 f.body → encode (decode f) = f)

/-- R60, R68, R73: words written out from the layout of R60 decode to the requests they stand for; S1 to S3 of
spec/95_test_vectors.md among them. -/
def Obligations.WordsOfTheTableDecode : Prop :=
  decodeTableWord 64 0x010300000001840A = some (.rhr 0x01 0 1) ∧
  decodeTableWord 64 0x01040000000131CA = some (.rir 0x01 0 1) ∧
  decodeTableWord 64 0x010600009A0122AA = some (.wsr 0x01 0 0x9A01) ∧
  decodeTableWord 64 0x01050000FF008C3A = some (.illfn 0x01 0x05 0 0xFF00) ∧
  decodeTableWord 64 0x1106000212340000 = some (.wsr 0x11 2 0x1234) ∧
  decodeTableWord 64 0x118300000001FFFF = some (.illfn 0x11 0x83 0 1)

/-- R68: the function-code map is complete. The mask and match values are the spec's; every other value of `W[55:48]` is
`ILLFN`. -/
def Obligations.FunctionCodeMapIsComplete : Prop :=
  ∀ (w : Nat), w < 2 ^ 64 →
    (w &&& 0x00FF000000000000 = 0x0003000000000000 → ∃ a x y, decodeTableWord 64 w = some (.rhr a x y)) ∧
    (w &&& 0x00FF000000000000 = 0x0004000000000000 → ∃ a x y, decodeTableWord 64 w = some (.rir a x y)) ∧
    (w &&& 0x00FF000000000000 = 0x0006000000000000 → ∃ a x y, decodeTableWord 64 w = some (.wsr a x y)) ∧
    (w &&& 0x00FF000000000000 ≠ 0x0003000000000000 → w &&& 0x00FF000000000000 ≠ 0x0004000000000000 →
      w &&& 0x00FF000000000000 ≠ 0x0006000000000000 →
      ∃ a fc x y, decodeTableWord 64 w = some (.illfn a fc x y) ∧ fc.toNat = w / 2 ^ 48 % 256)

/-- R62: the two header fields are big-endian and unsigned, for every function code; the value of a write too (decision D27,
conflict C1). -/
def Obligations.HeaderFieldsAreBigEndian : Prop :=
  ∀ (f : Frame), (decode f).addr = f.b0 ∧ (decode f).functionCode = f.b1 ∧
    (decode f).fieldA.toNat = f.b2.toNat * 256 + f.b3.toNat ∧ (decode f).fieldB.toNat = f.b4.toNat * 256 + f.b5.toNat

/-- R90, R91, R92: the two conversions, their inverses, and the swap. -/
def Obligations.ByteCodecConversions : Prop :=
  (∀ x y : Byte, (be16 x y).toNat = x.toNat * 256 + y.toNat) ∧
  (∀ x y : Byte, (le16 x y).toNat = y.toNat * 256 + x.toNat) ∧
  (∀ v : Word, beBytes v = [BitVec.ofNat 8 (v.toNat / 256), BitVec.ofNat 8 v.toNat]) ∧
  (∀ v : Word, leBytes v = [BitVec.ofNat 8 v.toNat, BitVec.ofNat 8 (v.toNat / 256)]) ∧
  (∀ v : Word, be16 (hi8 v) (lo8 v) = v) ∧ (∀ v : Word, le16 (lo8 v) (hi8 v) = v) ∧
  (∀ v : Word, swap16 (swap16 v) = v) ∧ (∀ x y : Byte, be16 x y = swap16 (le16 x y)) ∧
  (∀ v : Word, (swap16 v).toNat = v.toNat % 256 * 256 + v.toNat / 256)

/-! ## The CRC engine -/

/-- R80, R81: the CRC of a span: the seed for no byte, and one table step for each byte, first byte first. -/
def Obligations.CrcFoldsOverTheSpan : Prop :=
  crc16 [] = 0xFFFF ∧
  ∀ (bs : List Byte) (b : Byte),
    crc16 (bs ++ [b]) = (crc16 bs >>> 8) ^^^ crctab (b ^^^ BitVec.ofNat 8 (crc16 bs).toNat)

/-- R82: the table-driven update is the bitwise one of the reflected polynomial 0xA001, and every table entry is what the
procedure of R82 computes (the spec's decision D14; log entry 16). -/
def Obligations.TableUpdateIsTheBitwiseUpdate : Prop :=
  (∀ k : Byte, crctab k = crcShift8 (k.setWidth 16)) ∧
  ∀ (crc : Word) (b : Byte), crcUpdate crc b = crcShift8 (crc ^^^ b.setWidth 16)

/-- R83: `apply(TX, TX_LEN, Append)`: the CRC of the body stands behind it, low byte first, and `TX_LEN` has grown by 2; every
other byte of the buffer, every flag and every other register is as before. The buffer has room, as R83 requires. -/
def Obligations.AppendWritesTheCrcBehindTheBody : Prop :=
  ∀ (s : State), s.txLen + 2 ≤ s.tx.length →
    s.applyAppend = { s with
      crcAcc := crc16 (s.tx.take s.txLen), txLen := s.txLen + 2,
      tx := s.tx.take s.txLen ++ [lo8 (crc16 (s.tx.take s.txLen)), hi8 (crc16 (s.tx.take s.txLen))] ++
        s.tx.drop (s.txLen + 2) }

/-- R84: `apply(buffer, length, Verify)` compares the CRC of the first `length` bytes with the two bytes behind them, low byte
first, and changes nothing of the buffer; on `RX` it writes `CRC_ACC` and `CRC_MATCH` alone. Six zero bytes have the CRC
0x1B00, so eight zero bytes do not verify (the spec's own derivation from its table, decision D14). -/
def Obligations.VerifyComparesAndChangesNoByte : Prop :=
  (∀ (buf : List Byte) (n : Nat) (x y : Byte), buf[n]? = some x → buf[n + 1]? = some y →
    crcApply buf n .verify =
      CrcApplied.mk buf (crc16 (buf.take n)) (some (decide (crc16 (buf.take n) = le16 x y)))) ∧
  (∀ s : State, s.applyVerify =
    { s with crcAcc := crc16 s.rx.body, crcMatch := decide (crc16 s.rx.body = le16 s.rx.b6 s.rx.b7) }) ∧
  crc16 (List.replicate 6 0) = 0x1B00

/-- R85 (a): the round trip, for every buffer with room for the two bytes. -/
def Obligations.AppendedCrcVerifies : Prop :=
  ∀ (buf : List Byte) (n : Nat), n + 2 ≤ buf.length →
    (crcApply (crcApply buf n .append).buffer n .verify).isMatch = some true ∧
    (crcApply buf n .append).buffer.take n = buf.take n ∧ (crcApply buf n .append).buffer.length = buf.length

/-- R85 (b): flipping any single bit of a CRC-appended span, in the data or in the CRC bytes, makes Verify answer mismatch,
for every length of the data (the spec states it from general knowledge, G5; it rests on the table, decision D14). -/
def Obligations.SingleBitFlipNeverVerifies : Prop :=
  ∀ (body : List Byte) (j : Nat), j < 8 * (body.length + 2) →
    (crcApply ((withCrc body).modify (j / 8) (fun b => b ^^^ BitVec.twoPow 8 (j % 8))) body.length .verify).isMatch =
      some false

/-- R85 (c): the residue: the CRC over the data and the two appended CRC bytes is 0 (it rests on the table, decision D14). -/
def Obligations.CrcResidueIsZero : Prop := ∀ (body : List Byte), crc16 (withCrc body) = 0

/-! ## The register bank -/

/-- R97: `write_single`: exactly one holding register is written, every other register of both arrays and everything else keeps
its value; out of range nothing is written. -/
def Obligations.WriteSingleWritesOneRegister : Prop :=
  ∀ (s : State) (a v : Word),
    (a.toNat + 1 ≤ s.holdingCount → ∃ t, writeSingle s a.toNat v = some t ∧ t.reg .holding a.toNat = v ∧
      (∀ k j, ¬(k = .holding ∧ j = a.toNat) → t.reg k j = s.reg k j) ∧ t = { s with hr := t.hr }) ∧
    (s.holdingCount < a.toNat + 1 → writeSingle s a.toNat v = none)

/-- R96, R98: `read_range` gives every register of the range in order or nothing at all; the sum of start and count is one of
naturals (decision D9), so a range that would wrap is out of range. -/
def Obligations.ReadRangeIsAllOrNothing : Prop :=
  ∀ (s : State) (k : RegKind) (start count : Word),
    (start.toNat + count.toNat ≤ s.size k → ∃ vs, readRange s k start.toNat count.toNat = some vs ∧
      vs.length = count.toNat ∧ ∀ i < count.toNat, vs[i]? = some (s.reg k (start.toNat + i))) ∧
    (s.size k < start.toNat + count.toNat → readRange s k start.toNat count.toNat = none)

/-- R100: `BulkLoad` writes the whole sequence or nothing (decision D18, C3), and nothing but the registers named. That the start
and the length are any naturals, so that a load of all 65536 registers is served, is the model's choice of log entry 27; that the
whole load is one step is its choice of log entry 20. -/
def Obligations.BulkLoadIsWholeOrNothing : Prop :=
  ∀ (s : State) (k : RegKind) (start : Nat) (vs : List Word) (es : List Event), s.configured = true →
    s.processEnabled = false → s.inputs = .bulkLoad k start vs :: es →
    (start + vs.length ≤ s.size k → ∃ t, step s = .next t ∧
      (∀ i < vs.length, vs[i]? = some (t.reg k (start + i))) ∧
      (∀ k' j, ¬(k' = k ∧ start ≤ j ∧ j < start + vs.length) → t.reg k' j = s.reg k' j) ∧
      t = { s with inputs := es, hr := t.hr, ir := t.ir }) ∧
    (s.size k < start + vs.length → step s = .next { s with inputs := es })

/-- R101: `BulkStore` hands out the whole range or nothing; the bank is not changed (decision D18). That the start and the length
are any naturals, so that a store of all 65536 registers is served, is the model's choice of log entry 27; that the whole store is
one step is its choice of log entry 20. -/
def Obligations.BulkStoreHarvestsARange : Prop :=
  ∀ (s : State) (k : RegKind) (start n : Nat) (es : List Event), s.configured = true → s.processEnabled = false →
    s.inputs = .bulkStore k start n :: es →
    (start + n ≤ s.size k → ∃ vs, step s = .next { s with inputs := es, out := s.out ++ [.hostValues k start vs] } ∧
      vs.length = n ∧ ∀ i < n, vs[i]? = some (s.reg k (start + i))) ∧
    (s.size k < start + n → step s = .next { s with inputs := es })

/-- R102, R174: `HostRead` and `HostWrite` reach one register inside the array, whether the core is configured or not, and have no
meaning outside it (decision D22). Before `Configure` and after a failed one no size exists, and the model admits the 65536
indices that an array can have (log entry 7). -/
def Obligations.HostAccessReachesOneRegister : Prop :=
  ∀ (s : State) (k : RegKind) (i : Nat) (v : Word) (es : List Event), s.processEnabled = false →
    let size := if s.configured then s.size k else 65536
    (s.inputs = .hostRead k i :: es → i < size →
      step s = .next { s with inputs := es, out := s.out ++ [.hostValue k i (s.reg k i)] }) ∧
    (s.inputs = .hostWrite k i v :: es → i < size → ∃ t, step s = .next t ∧ t.reg k i = v ∧
      (∀ k' j, ¬(k' = k ∧ j = i) → t.reg k' j = s.reg k' j) ∧ t = { s with inputs := es, hr := t.hr, ir := t.ir }) ∧
    (s.inputs = .hostRead k i :: es ∨ s.inputs = .hostWrite k i v :: es → size ≤ i →
      step s = .refused (.hostIndexOutOfRange k i))

/-! ## The four requests, with no host activity inside (the premise of R51) -/

/-- R124 with R123, R129, R131: `RHR`, served and refused, every field of the next state named. The spec's own decisions are in
it: the sum over the naturals (D9), the count of 0 served (D10), `byte_count` (D13), the observer's bytes (D17). -/
def Obligations.ReadHoldingRegisters : Prop :=
  ∀ (s : State) (addr : Byte) (start count : Word), s.quiet →
    let body := readBody s .holding addr 0x03 start.toNat count.toNat
    let refusal := exceptionBody addr 0x03 0x02
    (start.toNat + count.toNat ≤ s.holdingCount ∧ count.toNat ≤ s.maxReadCount →
      exec (.rhr addr start count) s = .next { s with
        reqFc := 0x03, reqFieldA := start, reqFieldB := count, reqKind := .readHolding,
        tx := withCrc body ++ s.tx.drop (5 + 2 * count.toNat), txLen := 5 + 2 * count.toNat, crcAcc := crc16 body,
        syncState := .idle, pendingLen := 0, result := Result.mk .noAction 0,
        out := s.out ++ (if s.readHookEn then [.readEvent body s.hookCtx] else []) ++
          [.txFrame (withCrc body), .result (Result.mk .noAction 0)] }) ∧
    (¬(start.toNat + count.toNat ≤ s.holdingCount ∧ count.toNat ≤ s.maxReadCount) →
      exec (.rhr addr start count) s = .next { s with
        reqFc := 0x03, reqFieldA := start, reqFieldB := count, reqKind := .readHolding,
        tx := withCrc refusal ++ s.tx.drop 5, txLen := 5, crcAcc := crc16 refusal,
        syncState := .idle, pendingLen := 0, result := Result.mk .noAction 0,
        out := s.out ++ [.txFrame (withCrc refusal), .result (Result.mk .noAction 0)] })

/-- R125 with R123, R129, R131: `RIR`, served and refused, every field of the next state named. The check is against
`INPUT_COUNT`. Decisions D9, D10, D13 and D17 as for `RHR`. -/
def Obligations.ReadInputRegisters : Prop :=
  ∀ (s : State) (addr : Byte) (start count : Word), s.quiet →
    let body := readBody s .input addr 0x04 start.toNat count.toNat
    let refusal := exceptionBody addr 0x04 0x02
    (start.toNat + count.toNat ≤ s.inputCount ∧ count.toNat ≤ s.maxReadCount →
      exec (.rir addr start count) s = .next { s with
        reqFc := 0x04, reqFieldA := start, reqFieldB := count, reqKind := .readInput,
        tx := withCrc body ++ s.tx.drop (5 + 2 * count.toNat), txLen := 5 + 2 * count.toNat, crcAcc := crc16 body,
        syncState := .idle, pendingLen := 0, result := Result.mk .noAction 0,
        out := s.out ++ (if s.readHookEn then [.readEvent body s.hookCtx] else []) ++
          [.txFrame (withCrc body), .result (Result.mk .noAction 0)] }) ∧
    (¬(start.toNat + count.toNat ≤ s.inputCount ∧ count.toNat ≤ s.maxReadCount) →
      exec (.rir addr start count) s = .next { s with
        reqFc := 0x04, reqFieldA := start, reqFieldB := count, reqKind := .readInput,
        tx := withCrc refusal ++ s.tx.drop 5, txLen := 5, crcAcc := crc16 refusal,
        syncState := .idle, pendingLen := 0, result := Result.mk .noAction 0,
        out := s.out ++ [.txFrame (withCrc refusal), .result (Result.mk .noAction 0)] })

/-- R126 with R132, R65: `WSR`, served and refused. The register written is `field_a`; every other register of both arrays reads
as before; every other field of the next state is named. The exception code 0x02 is the spec's decision D11, the bytes of the
observer event are D17 and log entry 18, the result of a refusal is D16. For `MAX_READ_COUNT = 1` the `TX` of R26 has 7 bytes: that
the served form leaves `TX` 8 bytes long there is log entry 14. -/
def Obligations.WriteSingleRegister : Prop :=
  ∀ (s : State) (addr : Byte) (a v : Word), s.quiet →
    let i := Instr.wsr addr a v
    let refusal := exceptionBody addr 0x06 0x02
    (a.toNat + 1 ≤ s.holdingCount → ∃ t, exec i s = .next t ∧
      t.reg .holding a.toNat = v ∧ (∀ k j, ¬(k = .holding ∧ j = a.toNat) → t.reg k j = s.reg k j) ∧
      t = { s with
        hr := t.hr, reqFc := 0x06, reqFieldA := a, reqFieldB := v, reqKind := .writeSingle,
        tx := withCrc [addr, 0x06, hi8 a, lo8 a, hi8 v, lo8 v] ++ s.tx.drop 8, txLen := 8,
        crcAcc := crc16 [addr, 0x06, hi8 a, lo8 a, hi8 v, lo8 v],
        syncState := .idle, pendingLen := 0, result := Result.mk .written v,
        out := s.out ++
          (if s.writeHookEn then [.preWriteEvent (withCrc [addr, 0x06, hi8 a, lo8 a, hi8 v, lo8 v]) s.hookCtx] else []) ++
          [.txFrame (withCrc [addr, 0x06, hi8 a, lo8 a, hi8 v, lo8 v]), .result (Result.mk .written v)] }) ∧
    (s.holdingCount < a.toNat + 1 → exec i s = .next { s with
      reqFc := 0x06, reqFieldA := a, reqFieldB := v, reqKind := .writeSingle,
      tx := withCrc refusal ++ s.tx.drop 5, txLen := 5, crcAcc := crc16 refusal,
      syncState := .idle, pendingLen := 0, result := Result.mk .noAction 0,
      out := s.out ++ [.txFrame (withCrc refusal), .result (Result.mk .noAction 0)] })

/-- R127, R155: `ILLFN`: exception 0x01 whatever the fields hold; no register read or written, no observer event, no flag;
every field of the next state named (the result after an exception is decision D16). -/
def Obligations.UnknownFunctionIsRefused : Prop :=
  ∀ (s : State) (addr fc : Byte) (a b : Word), s.quiet →
    exec (.illfn addr fc a b) s = .next { s with
      reqFc := fc, reqFieldA := a, reqFieldB := b, reqKind := .unknown,
      tx := withCrc [addr, fc ||| 0x80, 0x01] ++ s.tx.drop 5, txLen := 5, crcAcc := crc16 [addr, fc ||| 0x80, 0x01],
      syncState := .idle, pendingLen := 0, result := Result.mk .noAction 0,
      out := s.out ++ [.txFrame (withCrc [addr, fc ||| 0x80, 0x01]), .result (Result.mk .noAction 0)] }

/-- R187, R42, R94: a `WSR` is committed before its response leaves, so a later `RHR` of the same register sees it, and the two
value bytes come back in the other order: written high byte first, read low byte first. -/
def Obligations.WrittenValueReadsBackSwapped : Prop :=
  ∀ (s : State) (addr : Byte) (a v : Word), s.quiet → a.toNat + 1 ≤ s.holdingCount → 1 ≤ s.maxReadCount →
    ∃ t u, exec (.wsr addr a v) s = .next t ∧ exec (.rhr addr a 1) t = .next u ∧
      Output.txFrame (withCrc [addr, 0x06, hi8 a, lo8 a, hi8 v, lo8 v]) ∈ t.out ∧
      u.response = withCrc [addr, 0x03, 0x02, lo8 v, hi8 v]

/-- R123, R46: the response to a read depends on the named registers alone: two states that agree on the size, the read limit
and the registers of the range send the same frame. -/
def Obligations.ResponseDependsOnNamedRegistersOnly : Prop :=
  ∀ (s s' : State) (addr : Byte) (start count : Word), s.quiet → s'.quiet → s.maxReadCount = s'.maxReadCount →
    (s.holdingCount = s'.holdingCount →
      (∀ i < count.toNat, s.reg .holding (start.toNat + i) = s'.reg .holding (start.toNat + i)) →
      ∃ t t', exec (.rhr addr start count) s = .next t ∧ exec (.rhr addr start count) s' = .next t' ∧
        t.response = t'.response) ∧
    (s.inputCount = s'.inputCount →
      (∀ i < count.toNat, s.reg .input (start.toNat + i) = s'.reg .input (start.toNat + i)) →
      ∃ t t', exec (.rir addr start count) s = .next t ∧ exec (.rir addr start count) s' = .next t' ∧
        t.response = t'.response)

/-! ## The four requests, with the host active inside -/

/-- R128, R141, R145, R148: every request of every form completes, whatever the host does to its own registers between the
actions; unless a `Reset` falls inside, exactly one frame is sent, the core is back in `Idle` with no byte pending, and the
result is reported last (log entries 4 and 5 for the points and a `Reset` at one). -/
def Obligations.EveryRequestCompletes : Prop :=
  ∀ (i : Instr) (s : State), s.gapsInRange → ∃ t, exec i s = .next t ∧
    (s.noResets → t.syncState = .idle ∧ t.pendingLen = 0 ∧
      (t.out.filter Output.isTxFrame).length = (s.out.filter Output.isTxFrame).length + 1 ∧
      t.out.getLast? = some (.result t.result))

/-- The frame of every request, with the host active inside and no `Reset`: no configuration register, no flag, no receive
buffer, no synchronizer time, no event in waiting changes (R10, R12, R138, R163); the latches hold the request (R121). -/
def Obligations.RequestsKeepControlState : Prop :=
  ∀ (i : Instr) (s t : State), s.noResets → exec i s = .next t →
    SameConfig s t ∧ t.lastActivity = s.lastActivity ∧ t.rx = s.rx ∧ t.crcMatch = s.crcMatch ∧
      t.cfgError = s.cfgError ∧ t.configured = s.configured ∧ t.inputs = s.inputs ∧
      t.reqFc = i.functionCode ∧ t.reqFieldA = i.fieldA ∧ t.reqFieldB = i.fieldB ∧ t.reqKind = i.kind

/-- The frame of every request over the register bank, with the host active inside and a `Reset` or not: a register that the
host does not write and that is not the target of a `WSR` reads as before (R12, R46, R97, R155, R169). -/
def Obligations.RequestsKeepOtherRegisters : Prop :=
  ∀ (i : Instr) (s t : State) (k : RegKind) (j : Nat), exec i s = .next t → ¬s.hostWrites k j →
    ¬(k = .holding ∧ ∃ addr a v, i = .wsr addr a v ∧ j = a.toNat) → t.reg k j = s.reg k j

/-- R45, R50, R51: with the host active inside, each register of a read is read once, at its own point, in increasing order:
value `i` of the payload is what the register holds after the host has acted at the first `i+1` points. Torn reads of several
registers are among these (95_test_vectors.md P4; decision D22, and log entry 4 for the points). -/
def Obligations.EachRegisterIsReadAtItsOwnPoint : Prop :=
  ∀ (s : State) (addr : Byte) (start count : Word), s.gapsInRange → s.noResets → count.toNat ≤ s.maxReadCount →
    (start.toNat + count.toNat ≤ s.holdingCount → ∃ t, exec (.rhr addr start count) s = .next t ∧
      Output.txFrame (withCrc ([addr, 0x03, BitVec.ofNat 8 (2 * count.toNat)] ++
        (List.range count.toNat).flatMap fun i => leBytes (s.regAfterGaps .holding (start.toNat + i) (i + 1)))) ∈ t.out) ∧
    (start.toNat + count.toNat ≤ s.inputCount → ∃ t, exec (.rir addr start count) s = .next t ∧
      Output.txFrame (withCrc ([addr, 0x04, BitVec.ofNat 8 (2 * count.toNat)] ++
        (List.range count.toNat).flatMap fun i => leBytes (s.regAfterGaps .input (start.toNat + i) (i + 1)))) ∈ t.out)

/-- R132, R180: between the pre-write event and the commit the register still holds its old value, which a host read there sees;
a host write there is overwritten by the commit (decisions D17, D22; log entry 4 for the points; that the event carries the
request's own encoding is log entry 18). -/
def Obligations.ObserverSeesTheOldValue : Prop :=
  ∀ (s : State) (addr : Byte) (a v w : Word), s.writeHookEn = true → a.toNat + 1 ≤ s.holdingCount →
    a.toNat < s.hostSize .holding →
    s.gaps = [Gap.mk [] false, Gap.mk [.read .holding a.toNat, .write .holding a.toNat w] false] →
    ∃ t, exec (.wsr addr a v) s = .next t ∧ t.reg .holding a.toNat = v ∧
      t.out = s.out ++ [.preWriteEvent (encode (.wsr addr a v)).bytes s.hookCtx,
        .hostValue .holding a.toNat (s.reg .holding a.toNat),
        .txFrame (withCrc (Instr.wsr addr a v).body), .result (Result.mk .written v)]

/-! ## The step -/

/-- R141: a step of a configured core with a complete frame for this address whose CRC verifies runs the decoded request, on the
state that the environment's activity before the first action and the verification leave (decisions D8, D24; log entries 3, 4). -/
def Obligations.StepRunsTheDecodedRequest : Prop :=
  ∀ (s m : State), s.configured = true → s.syncState = .frameReady → atGap s = .run m → s.rx.b0 = s.deviceAddr →
    s.rx.crcField = crc16 s.rx.body →
    step s = exec (decode s.rx) { m with crcAcc := crc16 s.rx.body, crcMatch := true }

/-- The placing of a request for the host (log entry 19): the step after it runs the request of the opcode table's number, on
the placed state with the CRC verified. -/
def Obligations.PlacedRequestRunsNext : Prop :=
  ∀ (s : State) (w : Nat) (i : Instr), decodeTableWord 64 w = some i →
    step (s.withFetchWord 64 w) =
      exec i { s.withFetchWord 64 w with crcAcc := crc16 i.body, crcMatch := true }

/-- R142, R152, R70: a frame for another address is dropped: no output but the idle result, no register touched, `CRC_ACC` and
`CRC_MATCH` as before. No address is a broadcast (decisions D24, D28). -/
def Obligations.ForeignFrameIsDropped : Prop :=
  ∀ (s : State), s.configured = true → s.syncState = .frameReady → s.quiet → s.rx.b0 ≠ s.deviceAddr →
    step s = .next { s with
      pendingLen := 0, syncState := .idle, result := Result.mk .idle 0, out := s.out ++ [.result (Result.mk .idle 0)] }

/-- R143, R153: a frame for this address whose CRC does not verify is dropped: no output but the idle result, no register
touched. -/
def Obligations.CorruptFrameIsDropped : Prop :=
  ∀ (s : State), s.configured = true → s.syncState = .frameReady → s.quiet → s.rx.b0 = s.deviceAddr →
    s.rx.crcField ≠ crc16 s.rx.body →
    step s = .next { s with
      crcAcc := crc16 s.rx.body, crcMatch := false, pendingLen := 0, syncState := .idle, result := Result.mk .idle 0,
      out := s.out ++ [.result (Result.mk .idle 0)] }

/-- R141, R161: every path through `Process` ends in `Idle` with no byte pending. So does a path that a `Reset` cuts short: these
two values are among those that R170 sets (decision D32), and that the step of the transaction ends there is log entry 5, with the
points of log entry 4. -/
def Obligations.ProcessEndsInIdle : Prop :=
  ∀ (s t : State), s.configured = true → s.syncState = .frameReady → step s = .next t →
    t.syncState = .idle ∧ t.pendingLen = 0

/-- R12, R46, R97, R163: what a requester can do to the bank with one frame, when the host is not active inside. No input register
changes. A holding register changes only if the frame is for this address, its CRC verifies and it is a `WSR` of that register
inside the array, and then it holds the frame's value. Every other frame leaves the whole bank as it is. -/
def Obligations.AFrameChangesAtMostOneHoldingRegister : Prop :=
  ∀ (s t : State), s.configured = true → s.syncState = .frameReady → s.quiet → step s = .next t →
    let i := decode s.rx
    let commits := s.rx.b0 = s.deviceAddr ∧ s.rx.crcField = crc16 s.rx.body ∧ i.functionCode = 0x06 ∧
      i.fieldA.toNat + 1 ≤ s.holdingCount
    (∀ j, t.reg .input j = s.reg .input j) ∧
    (∀ j, ¬(commits ∧ j = i.fieldA.toNat) → t.reg .holding j = s.reg .holding j) ∧
    (commits → t.reg .holding i.fieldA.toNat = i.fieldB)

/-- R168, R185: without an event and without a ready frame the core does nothing (decision D1; that such a step leaves the state
as it is, is log entry 1). -/
def Obligations.QuiescentCoreDoesNothing : Prop :=
  ∀ (s : State), s.syncState ≠ .frameReady → s.inputs = [] → step s = .next s

/-! ## More of `Reset` inside a transaction, and of the host before `Configure` -/

/-- R170: a `Reset` between two actions of a read that is served, of either kind, at every point: before the last register has been
read and before the observer event nothing is out; before the transmission only the event; after it, before R141 step 6 and
between steps 6 and 7, the frame is out but no result is reported. No register changes (decisions D17, D32; log entries 3 to 5 for where the environment acts). -/
def Obligations.ResetInsideAReadKeepsDoneActions : Prop :=
  ∀ (s : State) (k : RegKind) (addr : Byte) (start count : Word) (m : Nat) (gs : List Gap),
    start.toNat + count.toNat ≤ s.size k → count.toNat ≤ s.maxReadCount → m ≤ count.toNat + 3 →
    s.gaps = List.replicate m .still ++ .resetting :: gs →
    let i : Instr := match k with | .holding => .rhr addr start count | .input => .rir addr start count
    let body := readBody s k addr i.functionCode start.toNat count.toNat
    let event := if s.readHookEn then [Output.readEvent body s.hookCtx] else []
    ∃ t, exec i s = .next t ∧ CutByReset s t gs ∧ (∀ k' j, t.reg k' j = s.reg k' j) ∧
      t.out = s.out ++ (if m ≤ count.toNat then [] else if m = count.toNat + 1 then event
        else event ++ [.txFrame (withCrc body)])

/-- R170: a `Reset` inside a request that is refused, of every form (R156, R157): before the transmission nothing is out; after it,
before R141 step 6 and between steps 6 and 7, the exception response is out but no result is reported. No register changes and no observer is told (decisions D11, D32; log
entries 3 to 5 for where the environment acts). -/
def Obligations.ResetInsideARefusalKeepsDoneActions : Prop :=
  ∀ (s : State) (i : Instr) (code : Byte) (gs : List Gap), s.refusalCode i = some code →
    (s.gaps = .resetting :: gs →
      ∃ t, exec i s = .next t ∧ CutByReset s t gs ∧ (∀ k j, t.reg k j = s.reg k j) ∧ t.out = s.out) ∧
    (s.gaps = .still :: .resetting :: gs →
      ∃ t, exec i s = .next t ∧ CutByReset s t gs ∧ (∀ k j, t.reg k j = s.reg k j) ∧
        t.out = s.out ++ [.txFrame (withCrc (exceptionBody i.addr i.functionCode code))]) ∧
    (s.gaps = .still :: .still :: .resetting :: gs →
      ∃ t, exec i s = .next t ∧ CutByReset s t gs ∧ (∀ k j, t.reg k j = s.reg k j) ∧
        t.out = s.out ++ [.txFrame (withCrc (exceptionBody i.addr i.functionCode code))])

/-- The bulk events before a well-formed `Configure`, and after a failed one: refused, since the sizes they are checked against do
not exist (90_conflicts.md C12, 93_implementation_defined.md U2; the refusal is log entry 8). -/
def Obligations.BulkEventsBeforeConfigureAreRefused : Prop :=
  ∀ (s : State) (k : RegKind) (start n : Nat) (vs : List Word) (es : List Event), s.configured = false →
    (s.inputs = .bulkLoad k start vs :: es ∨ s.inputs = .bulkStore k start n :: es) →
    step s = .refused .sizesNotConfigured

/-! ## The status registers as the host samples them -/

/-- R32: what the host finds when it samples the status registers, and that sampling changes nothing.
As an event, in every state in which no frame is ready, a core without configuration or in error included: the five registers as
they stand (that a sample is an event, under a name of the model's, is log entry 28).
At every point inside a request of any form (R141): up to the last point, behind the transmission included, the registers as they
were before the request; between steps 6 and 7 `Idle` and 0 beside the old `RESULT`; the result is reported behind it.
Around a drop: before the first action of `Process` the frame ready, between the last two lines of `Drop` `Idle` and 0 beside the
old `RESULT`; then `(Idle, 0)` is reported.
A transaction inside which the host only samples, however often and at whatever points, completes and leaves what it leaves without
the samples, with the same other outputs in the same order (log entries 3, 4 and 28 for the points). -/
def Obligations.SamplesShowTheStatusRegisters : Prop :=
  (∀ (s : State) (es : List Event), s.inputs = .hostSample :: es → s.processEnabled = false →
    step s = .next { s with
      inputs := es,
      out := s.out ++ [.hostStatus (Status.mk s.syncState s.pendingLen s.result s.cfgError s.configured)] }) ∧
  (∀ (i : Instr) (s : State), s.gaps = List.replicate (s.points i) .sampling →
    ∃ t before, exec i s = .next t ∧
      t.out = s.out ++ before ++
        [.hostStatus (Status.mk .idle 0 s.result s.cfgError s.configured), .result t.result] ∧
      before.filter Output.isSample =
        List.replicate (s.points i - 1) (.hostStatus (Status.mk s.syncState s.pendingLen s.result s.cfgError s.configured)) ∧
      (before.filter Output.isTxFrame).length = 1) ∧
  (∀ (s : State), s.configured = true → s.syncState = .frameReady → s.gaps = [.sampling, .sampling] →
    s.rx.b0 ≠ s.deviceAddr ∨ s.rx.crcField ≠ crc16 s.rx.body →
    ∃ t, step s = .next t ∧ (∀ k j, t.reg k j = s.reg k j) ∧
      t.out = s.out ++ [.hostStatus (Status.mk .frameReady s.pendingLen s.result s.cfgError true),
        .hostStatus (Status.mk .idle 0 s.result s.cfgError true), .result (Result.mk .idle 0)]) ∧
  (∀ (s : State), s.configured = true → s.syncState = .frameReady → s.onlySampled →
    ∃ t q, step s = .next t ∧ step { s with gaps := [] } = .next q ∧ t = { q with gaps := t.gaps, out := t.out } ∧
      t.out.filter (fun o => !o.isSample) = q.out.filter (fun o => !o.isSample))
end

