-- ==== Sys2Proof/Laws/Memory.lean ====
section
/-! SUPPORT. Register storage: read after write, writes leave other indices alone, and every write keeps the canonical form. -/

namespace Sys2Proof.Machine

theorem Memory.read_write_same (m : Memory) (i : Nat) (v : Word) : Memory.read (Memory.write m i v) i = some v := by
  induction m with
  | nil => simp [Memory.write, Memory.read]
  | cons c m ih =>
    obtain ⟨j, w⟩ := c
    simp only [Memory.write]
    split
    · simp [Memory.read]
    · split
      · simp [Memory.read]
      · rename_i h
        simp [Memory.read, ih, Ne.symm h]

theorem Memory.read_write_other (m : Memory) (i j : Nat) (v : Word) (h : j ≠ i) :
    Memory.read (Memory.write m i v) j = Memory.read m j := by
  induction m with
  | nil => simp [Memory.write, Memory.read, Ne.symm h]
  | cons c m ih =>
    obtain ⟨k, w⟩ := c
    simp only [Memory.write]
    split
    · simp [Memory.read, Ne.symm h]
    · split
      · rename_i hik
        subst hik
        simp [Memory.read, Ne.symm h]
      · simp [Memory.read, ih]

/-- The indices listed after a write are the ones listed before it, and the one written. -/
theorem Memory.mem_write (m : Memory) (i : Nat) (v : Word) (c : Nat × Word) (h : c ∈ Memory.write m i v) :
    c = (i, v) ∨ c ∈ m := by
  induction m with
  | nil => simpa [Memory.write] using h
  | cons d m ih =>
    obtain ⟨j, w⟩ := d
    simp only [Memory.write] at h
    split at h
    · simpa using h
    · split at h
      · rcases List.mem_cons.mp h with h | h
        · exact .inl h
        · exact .inr (List.mem_cons_of_mem _ h)
      · rcases List.mem_cons.mp h with h | h
        · exact .inr (h ▸ List.mem_cons_self)
        · exact (ih h).imp id (List.mem_cons_of_mem _)

theorem Memory.write_pairwise (m : Memory) (i : Nat) (v : Word) (h : m.Pairwise (fun a b => a.1 < b.1)) :
    (Memory.write m i v).Pairwise (fun a b => a.1 < b.1) := by
  induction m with
  | nil => simp [Memory.write]
  | cons d m ih =>
    obtain ⟨j, w⟩ := d
    obtain ⟨hj, hm⟩ := List.pairwise_cons.mp h
    simp only [Memory.write]
    split
    · rename_i hij
      refine List.pairwise_cons.mpr ⟨fun c hc => ?_, h⟩
      rcases List.mem_cons.mp hc with rfl | hc
      · exact hij
      · exact Nat.lt_trans hij (hj c hc)
    · split
      · rename_i hij
        subst hij
        exact List.pairwise_cons.mpr ⟨hj, hm⟩
      · refine List.pairwise_cons.mpr ⟨fun c hc => ?_, ih hm⟩
        rcases Memory.mem_write m i v c hc with rfl | hc
        · show j < i
          omega
        · exact hj c hc

/-- Every write of a legal index keeps the canonical form. -/
theorem Memory.write_wf (m : Memory) (i : Nat) (v : Word) (h : Memory.wf m) (hi : i < Config.maxArraySize) :
    Memory.wf (Memory.write m i v) := by
  refine ⟨Memory.write_pairwise m i v h.1, fun c hc => ?_⟩
  rcases Memory.mem_write m i v c hc with rfl | hc
  · exact hi
  · exact h.2 c hc

theorem Memory.wf_nil : Memory.wf [] := by simp [Memory.wf]

end Sys2Proof.Machine
end

