-- ==== Sys2Proof/Laws/State.lean ====
section
/-! SUPPORT. One lemma per field of State and per update of it: what the update leaves in the field. Each is true by
unfolding; later proofs rewrite with them and unfold no record update. -/

namespace Sys2Proof.Machine

/-! ### `emit` -/

@[simp] theorem emit_hr (s : State) (o : Output) : (s.emit o).hr = s.hr := rfl
@[simp] theorem emit_ir (s : State) (o : Output) : (s.emit o).ir = s.ir := rfl
@[simp] theorem emit_syncState (s : State) (o : Output) : (s.emit o).syncState = s.syncState := rfl
@[simp] theorem emit_pendingLen (s : State) (o : Output) : (s.emit o).pendingLen = s.pendingLen := rfl
@[simp] theorem emit_lastActivity (s : State) (o : Output) : (s.emit o).lastActivity = s.lastActivity := rfl
@[simp] theorem emit_rx (s : State) (o : Output) : (s.emit o).rx = s.rx := rfl
@[simp] theorem emit_timeout (s : State) (o : Output) : (s.emit o).timeout = s.timeout := rfl
@[simp] theorem emit_deviceAddr (s : State) (o : Output) : (s.emit o).deviceAddr = s.deviceAddr := rfl
@[simp] theorem emit_inputCount (s : State) (o : Output) : (s.emit o).inputCount = s.inputCount := rfl
@[simp] theorem emit_holdingCount (s : State) (o : Output) : (s.emit o).holdingCount = s.holdingCount := rfl
@[simp] theorem emit_maxReadCount (s : State) (o : Output) : (s.emit o).maxReadCount = s.maxReadCount := rfl
@[simp] theorem emit_readHookEn (s : State) (o : Output) : (s.emit o).readHookEn = s.readHookEn := rfl
@[simp] theorem emit_writeHookEn (s : State) (o : Output) : (s.emit o).writeHookEn = s.writeHookEn := rfl
@[simp] theorem emit_hookCtx (s : State) (o : Output) : (s.emit o).hookCtx = s.hookCtx := rfl
@[simp] theorem emit_crcAcc (s : State) (o : Output) : (s.emit o).crcAcc = s.crcAcc := rfl
@[simp] theorem emit_crcMatch (s : State) (o : Output) : (s.emit o).crcMatch = s.crcMatch := rfl
@[simp] theorem emit_cfgError (s : State) (o : Output) : (s.emit o).cfgError = s.cfgError := rfl
@[simp] theorem emit_configured (s : State) (o : Output) : (s.emit o).configured = s.configured := rfl
@[simp] theorem emit_result (s : State) (o : Output) : (s.emit o).result = s.result := rfl
@[simp] theorem emit_tx (s : State) (o : Output) : (s.emit o).tx = s.tx := rfl
@[simp] theorem emit_txLen (s : State) (o : Output) : (s.emit o).txLen = s.txLen := rfl
@[simp] theorem emit_reqFc (s : State) (o : Output) : (s.emit o).reqFc = s.reqFc := rfl
@[simp] theorem emit_reqFieldA (s : State) (o : Output) : (s.emit o).reqFieldA = s.reqFieldA := rfl
@[simp] theorem emit_reqFieldB (s : State) (o : Output) : (s.emit o).reqFieldB = s.reqFieldB := rfl
@[simp] theorem emit_reqKind (s : State) (o : Output) : (s.emit o).reqKind = s.reqKind := rfl
@[simp] theorem emit_tw (s : State) (o : Output) : (s.emit o).tw = s.tw := rfl
@[simp] theorem emit_inputs (s : State) (o : Output) : (s.emit o).inputs = s.inputs := rfl
@[simp] theorem emit_gaps (s : State) (o : Output) : (s.emit o).gaps = s.gaps := rfl
@[simp] theorem emit_out (s : State) (o : Output) : (s.emit o).out = s.out ++ [o] := rfl

/-! ### `report` -/

@[simp] theorem report_hr (s : State) (r : Result) : (s.report r).hr = s.hr := rfl
@[simp] theorem report_ir (s : State) (r : Result) : (s.report r).ir = s.ir := rfl
@[simp] theorem report_syncState (s : State) (r : Result) : (s.report r).syncState = s.syncState := rfl
@[simp] theorem report_pendingLen (s : State) (r : Result) : (s.report r).pendingLen = s.pendingLen := rfl
@[simp] theorem report_lastActivity (s : State) (r : Result) : (s.report r).lastActivity = s.lastActivity := rfl
@[simp] theorem report_rx (s : State) (r : Result) : (s.report r).rx = s.rx := rfl
@[simp] theorem report_timeout (s : State) (r : Result) : (s.report r).timeout = s.timeout := rfl
@[simp] theorem report_deviceAddr (s : State) (r : Result) : (s.report r).deviceAddr = s.deviceAddr := rfl
@[simp] theorem report_inputCount (s : State) (r : Result) : (s.report r).inputCount = s.inputCount := rfl
@[simp] theorem report_holdingCount (s : State) (r : Result) : (s.report r).holdingCount = s.holdingCount := rfl
@[simp] theorem report_maxReadCount (s : State) (r : Result) : (s.report r).maxReadCount = s.maxReadCount := rfl
@[simp] theorem report_readHookEn (s : State) (r : Result) : (s.report r).readHookEn = s.readHookEn := rfl
@[simp] theorem report_writeHookEn (s : State) (r : Result) : (s.report r).writeHookEn = s.writeHookEn := rfl
@[simp] theorem report_hookCtx (s : State) (r : Result) : (s.report r).hookCtx = s.hookCtx := rfl
@[simp] theorem report_crcAcc (s : State) (r : Result) : (s.report r).crcAcc = s.crcAcc := rfl
@[simp] theorem report_crcMatch (s : State) (r : Result) : (s.report r).crcMatch = s.crcMatch := rfl
@[simp] theorem report_cfgError (s : State) (r : Result) : (s.report r).cfgError = s.cfgError := rfl
@[simp] theorem report_configured (s : State) (r : Result) : (s.report r).configured = s.configured := rfl
@[simp] theorem report_result (s : State) (r : Result) : (s.report r).result = r := rfl
@[simp] theorem report_tx (s : State) (r : Result) : (s.report r).tx = s.tx := rfl
@[simp] theorem report_txLen (s : State) (r : Result) : (s.report r).txLen = s.txLen := rfl
@[simp] theorem report_reqFc (s : State) (r : Result) : (s.report r).reqFc = s.reqFc := rfl
@[simp] theorem report_reqFieldA (s : State) (r : Result) : (s.report r).reqFieldA = s.reqFieldA := rfl
@[simp] theorem report_reqFieldB (s : State) (r : Result) : (s.report r).reqFieldB = s.reqFieldB := rfl
@[simp] theorem report_reqKind (s : State) (r : Result) : (s.report r).reqKind = s.reqKind := rfl
@[simp] theorem report_tw (s : State) (r : Result) : (s.report r).tw = s.tw := rfl
@[simp] theorem report_inputs (s : State) (r : Result) : (s.report r).inputs = s.inputs := rfl
@[simp] theorem report_gaps (s : State) (r : Result) : (s.report r).gaps = s.gaps := rfl
@[simp] theorem report_out (s : State) (r : Result) : (s.report r).out = s.out ++ [.result r] := rfl

/-! ### `txWrite` -/

@[simp] theorem txWrite_hr (s : State) (n : Nat) (bs : List Byte) : (s.txWrite n bs).hr = s.hr := rfl
@[simp] theorem txWrite_ir (s : State) (n : Nat) (bs : List Byte) : (s.txWrite n bs).ir = s.ir := rfl
@[simp] theorem txWrite_syncState (s : State) (n : Nat) (bs : List Byte) : (s.txWrite n bs).syncState = s.syncState := rfl
@[simp] theorem txWrite_pendingLen (s : State) (n : Nat) (bs : List Byte) : (s.txWrite n bs).pendingLen = s.pendingLen := rfl
@[simp] theorem txWrite_lastActivity (s : State) (n : Nat) (bs : List Byte) : (s.txWrite n bs).lastActivity = s.lastActivity := rfl
@[simp] theorem txWrite_rx (s : State) (n : Nat) (bs : List Byte) : (s.txWrite n bs).rx = s.rx := rfl
@[simp] theorem txWrite_timeout (s : State) (n : Nat) (bs : List Byte) : (s.txWrite n bs).timeout = s.timeout := rfl
@[simp] theorem txWrite_deviceAddr (s : State) (n : Nat) (bs : List Byte) : (s.txWrite n bs).deviceAddr = s.deviceAddr := rfl
@[simp] theorem txWrite_inputCount (s : State) (n : Nat) (bs : List Byte) : (s.txWrite n bs).inputCount = s.inputCount := rfl
@[simp] theorem txWrite_holdingCount (s : State) (n : Nat) (bs : List Byte) : (s.txWrite n bs).holdingCount = s.holdingCount := rfl
@[simp] theorem txWrite_maxReadCount (s : State) (n : Nat) (bs : List Byte) : (s.txWrite n bs).maxReadCount = s.maxReadCount := rfl
@[simp] theorem txWrite_readHookEn (s : State) (n : Nat) (bs : List Byte) : (s.txWrite n bs).readHookEn = s.readHookEn := rfl
@[simp] theorem txWrite_writeHookEn (s : State) (n : Nat) (bs : List Byte) : (s.txWrite n bs).writeHookEn = s.writeHookEn := rfl
@[simp] theorem txWrite_hookCtx (s : State) (n : Nat) (bs : List Byte) : (s.txWrite n bs).hookCtx = s.hookCtx := rfl
@[simp] theorem txWrite_crcAcc (s : State) (n : Nat) (bs : List Byte) : (s.txWrite n bs).crcAcc = s.crcAcc := rfl
@[simp] theorem txWrite_crcMatch (s : State) (n : Nat) (bs : List Byte) : (s.txWrite n bs).crcMatch = s.crcMatch := rfl
@[simp] theorem txWrite_cfgError (s : State) (n : Nat) (bs : List Byte) : (s.txWrite n bs).cfgError = s.cfgError := rfl
@[simp] theorem txWrite_configured (s : State) (n : Nat) (bs : List Byte) : (s.txWrite n bs).configured = s.configured := rfl
@[simp] theorem txWrite_result (s : State) (n : Nat) (bs : List Byte) : (s.txWrite n bs).result = s.result := rfl
@[simp] theorem txWrite_tx (s : State) (n : Nat) (bs : List Byte) : (s.txWrite n bs).tx = memWrite s.tx n bs := rfl
@[simp] theorem txWrite_txLen (s : State) (n : Nat) (bs : List Byte) : (s.txWrite n bs).txLen = s.txLen := rfl
@[simp] theorem txWrite_reqFc (s : State) (n : Nat) (bs : List Byte) : (s.txWrite n bs).reqFc = s.reqFc := rfl
@[simp] theorem txWrite_reqFieldA (s : State) (n : Nat) (bs : List Byte) : (s.txWrite n bs).reqFieldA = s.reqFieldA := rfl
@[simp] theorem txWrite_reqFieldB (s : State) (n : Nat) (bs : List Byte) : (s.txWrite n bs).reqFieldB = s.reqFieldB := rfl
@[simp] theorem txWrite_reqKind (s : State) (n : Nat) (bs : List Byte) : (s.txWrite n bs).reqKind = s.reqKind := rfl
@[simp] theorem txWrite_tw (s : State) (n : Nat) (bs : List Byte) : (s.txWrite n bs).tw = s.tw := rfl
@[simp] theorem txWrite_inputs (s : State) (n : Nat) (bs : List Byte) : (s.txWrite n bs).inputs = s.inputs := rfl
@[simp] theorem txWrite_gaps (s : State) (n : Nat) (bs : List Byte) : (s.txWrite n bs).gaps = s.gaps := rfl
@[simp] theorem txWrite_out (s : State) (n : Nat) (bs : List Byte) : (s.txWrite n bs).out = s.out := rfl

/-! ### `setTxLen` -/

@[simp] theorem setTxLen_hr (s : State) (n : Nat) : (s.setTxLen n).hr = s.hr := rfl
@[simp] theorem setTxLen_ir (s : State) (n : Nat) : (s.setTxLen n).ir = s.ir := rfl
@[simp] theorem setTxLen_syncState (s : State) (n : Nat) : (s.setTxLen n).syncState = s.syncState := rfl
@[simp] theorem setTxLen_pendingLen (s : State) (n : Nat) : (s.setTxLen n).pendingLen = s.pendingLen := rfl
@[simp] theorem setTxLen_lastActivity (s : State) (n : Nat) : (s.setTxLen n).lastActivity = s.lastActivity := rfl
@[simp] theorem setTxLen_rx (s : State) (n : Nat) : (s.setTxLen n).rx = s.rx := rfl
@[simp] theorem setTxLen_timeout (s : State) (n : Nat) : (s.setTxLen n).timeout = s.timeout := rfl
@[simp] theorem setTxLen_deviceAddr (s : State) (n : Nat) : (s.setTxLen n).deviceAddr = s.deviceAddr := rfl
@[simp] theorem setTxLen_inputCount (s : State) (n : Nat) : (s.setTxLen n).inputCount = s.inputCount := rfl
@[simp] theorem setTxLen_holdingCount (s : State) (n : Nat) : (s.setTxLen n).holdingCount = s.holdingCount := rfl
@[simp] theorem setTxLen_maxReadCount (s : State) (n : Nat) : (s.setTxLen n).maxReadCount = s.maxReadCount := rfl
@[simp] theorem setTxLen_readHookEn (s : State) (n : Nat) : (s.setTxLen n).readHookEn = s.readHookEn := rfl
@[simp] theorem setTxLen_writeHookEn (s : State) (n : Nat) : (s.setTxLen n).writeHookEn = s.writeHookEn := rfl
@[simp] theorem setTxLen_hookCtx (s : State) (n : Nat) : (s.setTxLen n).hookCtx = s.hookCtx := rfl
@[simp] theorem setTxLen_crcAcc (s : State) (n : Nat) : (s.setTxLen n).crcAcc = s.crcAcc := rfl
@[simp] theorem setTxLen_crcMatch (s : State) (n : Nat) : (s.setTxLen n).crcMatch = s.crcMatch := rfl
@[simp] theorem setTxLen_cfgError (s : State) (n : Nat) : (s.setTxLen n).cfgError = s.cfgError := rfl
@[simp] theorem setTxLen_configured (s : State) (n : Nat) : (s.setTxLen n).configured = s.configured := rfl
@[simp] theorem setTxLen_result (s : State) (n : Nat) : (s.setTxLen n).result = s.result := rfl
@[simp] theorem setTxLen_tx (s : State) (n : Nat) : (s.setTxLen n).tx = s.tx := rfl
@[simp] theorem setTxLen_txLen (s : State) (n : Nat) : (s.setTxLen n).txLen = n := rfl
@[simp] theorem setTxLen_reqFc (s : State) (n : Nat) : (s.setTxLen n).reqFc = s.reqFc := rfl
@[simp] theorem setTxLen_reqFieldA (s : State) (n : Nat) : (s.setTxLen n).reqFieldA = s.reqFieldA := rfl
@[simp] theorem setTxLen_reqFieldB (s : State) (n : Nat) : (s.setTxLen n).reqFieldB = s.reqFieldB := rfl
@[simp] theorem setTxLen_reqKind (s : State) (n : Nat) : (s.setTxLen n).reqKind = s.reqKind := rfl
@[simp] theorem setTxLen_tw (s : State) (n : Nat) : (s.setTxLen n).tw = s.tw := rfl
@[simp] theorem setTxLen_inputs (s : State) (n : Nat) : (s.setTxLen n).inputs = s.inputs := rfl
@[simp] theorem setTxLen_gaps (s : State) (n : Nat) : (s.setTxLen n).gaps = s.gaps := rfl
@[simp] theorem setTxLen_out (s : State) (n : Nat) : (s.setTxLen n).out = s.out := rfl

/-! ### `toIdle` -/

@[simp] theorem toIdle_hr (s : State) : (s.toIdle).hr = s.hr := rfl
@[simp] theorem toIdle_ir (s : State) : (s.toIdle).ir = s.ir := rfl
@[simp] theorem toIdle_syncState (s : State) : (s.toIdle).syncState = .idle := rfl
@[simp] theorem toIdle_pendingLen (s : State) : (s.toIdle).pendingLen = 0 := rfl
@[simp] theorem toIdle_lastActivity (s : State) : (s.toIdle).lastActivity = s.lastActivity := rfl
@[simp] theorem toIdle_rx (s : State) : (s.toIdle).rx = s.rx := rfl
@[simp] theorem toIdle_timeout (s : State) : (s.toIdle).timeout = s.timeout := rfl
@[simp] theorem toIdle_deviceAddr (s : State) : (s.toIdle).deviceAddr = s.deviceAddr := rfl
@[simp] theorem toIdle_inputCount (s : State) : (s.toIdle).inputCount = s.inputCount := rfl
@[simp] theorem toIdle_holdingCount (s : State) : (s.toIdle).holdingCount = s.holdingCount := rfl
@[simp] theorem toIdle_maxReadCount (s : State) : (s.toIdle).maxReadCount = s.maxReadCount := rfl
@[simp] theorem toIdle_readHookEn (s : State) : (s.toIdle).readHookEn = s.readHookEn := rfl
@[simp] theorem toIdle_writeHookEn (s : State) : (s.toIdle).writeHookEn = s.writeHookEn := rfl
@[simp] theorem toIdle_hookCtx (s : State) : (s.toIdle).hookCtx = s.hookCtx := rfl
@[simp] theorem toIdle_crcAcc (s : State) : (s.toIdle).crcAcc = s.crcAcc := rfl
@[simp] theorem toIdle_crcMatch (s : State) : (s.toIdle).crcMatch = s.crcMatch := rfl
@[simp] theorem toIdle_cfgError (s : State) : (s.toIdle).cfgError = s.cfgError := rfl
@[simp] theorem toIdle_configured (s : State) : (s.toIdle).configured = s.configured := rfl
@[simp] theorem toIdle_result (s : State) : (s.toIdle).result = s.result := rfl
@[simp] theorem toIdle_tx (s : State) : (s.toIdle).tx = s.tx := rfl
@[simp] theorem toIdle_txLen (s : State) : (s.toIdle).txLen = s.txLen := rfl
@[simp] theorem toIdle_reqFc (s : State) : (s.toIdle).reqFc = s.reqFc := rfl
@[simp] theorem toIdle_reqFieldA (s : State) : (s.toIdle).reqFieldA = s.reqFieldA := rfl
@[simp] theorem toIdle_reqFieldB (s : State) : (s.toIdle).reqFieldB = s.reqFieldB := rfl
@[simp] theorem toIdle_reqKind (s : State) : (s.toIdle).reqKind = s.reqKind := rfl
@[simp] theorem toIdle_tw (s : State) : (s.toIdle).tw = s.tw := rfl
@[simp] theorem toIdle_inputs (s : State) : (s.toIdle).inputs = s.inputs := rfl
@[simp] theorem toIdle_gaps (s : State) : (s.toIdle).gaps = s.gaps := rfl
@[simp] theorem toIdle_out (s : State) : (s.toIdle).out = s.out := rfl

/-! ### `latch` -/

@[simp] theorem latch_hr (s : State) (i : Instr) : (s.latch i).hr = s.hr := rfl
@[simp] theorem latch_ir (s : State) (i : Instr) : (s.latch i).ir = s.ir := rfl
@[simp] theorem latch_syncState (s : State) (i : Instr) : (s.latch i).syncState = s.syncState := rfl
@[simp] theorem latch_pendingLen (s : State) (i : Instr) : (s.latch i).pendingLen = s.pendingLen := rfl
@[simp] theorem latch_lastActivity (s : State) (i : Instr) : (s.latch i).lastActivity = s.lastActivity := rfl
@[simp] theorem latch_rx (s : State) (i : Instr) : (s.latch i).rx = s.rx := rfl
@[simp] theorem latch_timeout (s : State) (i : Instr) : (s.latch i).timeout = s.timeout := rfl
@[simp] theorem latch_deviceAddr (s : State) (i : Instr) : (s.latch i).deviceAddr = s.deviceAddr := rfl
@[simp] theorem latch_inputCount (s : State) (i : Instr) : (s.latch i).inputCount = s.inputCount := rfl
@[simp] theorem latch_holdingCount (s : State) (i : Instr) : (s.latch i).holdingCount = s.holdingCount := rfl
@[simp] theorem latch_maxReadCount (s : State) (i : Instr) : (s.latch i).maxReadCount = s.maxReadCount := rfl
@[simp] theorem latch_readHookEn (s : State) (i : Instr) : (s.latch i).readHookEn = s.readHookEn := rfl
@[simp] theorem latch_writeHookEn (s : State) (i : Instr) : (s.latch i).writeHookEn = s.writeHookEn := rfl
@[simp] theorem latch_hookCtx (s : State) (i : Instr) : (s.latch i).hookCtx = s.hookCtx := rfl
@[simp] theorem latch_crcAcc (s : State) (i : Instr) : (s.latch i).crcAcc = s.crcAcc := rfl
@[simp] theorem latch_crcMatch (s : State) (i : Instr) : (s.latch i).crcMatch = s.crcMatch := rfl
@[simp] theorem latch_cfgError (s : State) (i : Instr) : (s.latch i).cfgError = s.cfgError := rfl
@[simp] theorem latch_configured (s : State) (i : Instr) : (s.latch i).configured = s.configured := rfl
@[simp] theorem latch_result (s : State) (i : Instr) : (s.latch i).result = s.result := rfl
@[simp] theorem latch_tx (s : State) (i : Instr) : (s.latch i).tx = s.tx := rfl
@[simp] theorem latch_txLen (s : State) (i : Instr) : (s.latch i).txLen = s.txLen := rfl
@[simp] theorem latch_reqFc (s : State) (i : Instr) : (s.latch i).reqFc = i.functionCode := rfl
@[simp] theorem latch_reqFieldA (s : State) (i : Instr) : (s.latch i).reqFieldA = i.fieldA := rfl
@[simp] theorem latch_reqFieldB (s : State) (i : Instr) : (s.latch i).reqFieldB = i.fieldB := rfl
@[simp] theorem latch_reqKind (s : State) (i : Instr) : (s.latch i).reqKind = i.kind := rfl
@[simp] theorem latch_tw (s : State) (i : Instr) : (s.latch i).tw = s.tw := rfl
@[simp] theorem latch_inputs (s : State) (i : Instr) : (s.latch i).inputs = s.inputs := rfl
@[simp] theorem latch_gaps (s : State) (i : Instr) : (s.latch i).gaps = s.gaps := rfl
@[simp] theorem latch_out (s : State) (i : Instr) : (s.latch i).out = s.out := rfl

/-! ### `applyVerify` -/

@[simp] theorem applyVerify_hr (s : State) : (s.applyVerify).hr = s.hr := rfl
@[simp] theorem applyVerify_ir (s : State) : (s.applyVerify).ir = s.ir := rfl
@[simp] theorem applyVerify_syncState (s : State) : (s.applyVerify).syncState = s.syncState := rfl
@[simp] theorem applyVerify_pendingLen (s : State) : (s.applyVerify).pendingLen = s.pendingLen := rfl
@[simp] theorem applyVerify_lastActivity (s : State) : (s.applyVerify).lastActivity = s.lastActivity := rfl
@[simp] theorem applyVerify_rx (s : State) : (s.applyVerify).rx = s.rx := rfl
@[simp] theorem applyVerify_timeout (s : State) : (s.applyVerify).timeout = s.timeout := rfl
@[simp] theorem applyVerify_deviceAddr (s : State) : (s.applyVerify).deviceAddr = s.deviceAddr := rfl
@[simp] theorem applyVerify_inputCount (s : State) : (s.applyVerify).inputCount = s.inputCount := rfl
@[simp] theorem applyVerify_holdingCount (s : State) : (s.applyVerify).holdingCount = s.holdingCount := rfl
@[simp] theorem applyVerify_maxReadCount (s : State) : (s.applyVerify).maxReadCount = s.maxReadCount := rfl
@[simp] theorem applyVerify_readHookEn (s : State) : (s.applyVerify).readHookEn = s.readHookEn := rfl
@[simp] theorem applyVerify_writeHookEn (s : State) : (s.applyVerify).writeHookEn = s.writeHookEn := rfl
@[simp] theorem applyVerify_hookCtx (s : State) : (s.applyVerify).hookCtx = s.hookCtx := rfl
@[simp] theorem applyVerify_crcAcc (s : State) : (s.applyVerify).crcAcc = crc16 s.rx.body := rfl
@[simp] theorem applyVerify_crcMatch (s : State) : (s.applyVerify).crcMatch = (crc16 s.rx.body == s.rx.crcField) := rfl
@[simp] theorem applyVerify_cfgError (s : State) : (s.applyVerify).cfgError = s.cfgError := rfl
@[simp] theorem applyVerify_configured (s : State) : (s.applyVerify).configured = s.configured := rfl
@[simp] theorem applyVerify_result (s : State) : (s.applyVerify).result = s.result := rfl
@[simp] theorem applyVerify_tx (s : State) : (s.applyVerify).tx = s.tx := rfl
@[simp] theorem applyVerify_txLen (s : State) : (s.applyVerify).txLen = s.txLen := rfl
@[simp] theorem applyVerify_reqFc (s : State) : (s.applyVerify).reqFc = s.reqFc := rfl
@[simp] theorem applyVerify_reqFieldA (s : State) : (s.applyVerify).reqFieldA = s.reqFieldA := rfl
@[simp] theorem applyVerify_reqFieldB (s : State) : (s.applyVerify).reqFieldB = s.reqFieldB := rfl
@[simp] theorem applyVerify_reqKind (s : State) : (s.applyVerify).reqKind = s.reqKind := rfl
@[simp] theorem applyVerify_tw (s : State) : (s.applyVerify).tw = s.tw := rfl
@[simp] theorem applyVerify_inputs (s : State) : (s.applyVerify).inputs = s.inputs := rfl
@[simp] theorem applyVerify_gaps (s : State) : (s.applyVerify).gaps = s.gaps := rfl
@[simp] theorem applyVerify_out (s : State) : (s.applyVerify).out = s.out := rfl

/-! ### `applyAppend` -/

@[simp] theorem applyAppend_hr (s : State) : (s.applyAppend).hr = s.hr := rfl
@[simp] theorem applyAppend_ir (s : State) : (s.applyAppend).ir = s.ir := rfl
@[simp] theorem applyAppend_syncState (s : State) : (s.applyAppend).syncState = s.syncState := rfl
@[simp] theorem applyAppend_pendingLen (s : State) : (s.applyAppend).pendingLen = s.pendingLen := rfl
@[simp] theorem applyAppend_lastActivity (s : State) : (s.applyAppend).lastActivity = s.lastActivity := rfl
@[simp] theorem applyAppend_rx (s : State) : (s.applyAppend).rx = s.rx := rfl
@[simp] theorem applyAppend_timeout (s : State) : (s.applyAppend).timeout = s.timeout := rfl
@[simp] theorem applyAppend_deviceAddr (s : State) : (s.applyAppend).deviceAddr = s.deviceAddr := rfl
@[simp] theorem applyAppend_inputCount (s : State) : (s.applyAppend).inputCount = s.inputCount := rfl
@[simp] theorem applyAppend_holdingCount (s : State) : (s.applyAppend).holdingCount = s.holdingCount := rfl
@[simp] theorem applyAppend_maxReadCount (s : State) : (s.applyAppend).maxReadCount = s.maxReadCount := rfl
@[simp] theorem applyAppend_readHookEn (s : State) : (s.applyAppend).readHookEn = s.readHookEn := rfl
@[simp] theorem applyAppend_writeHookEn (s : State) : (s.applyAppend).writeHookEn = s.writeHookEn := rfl
@[simp] theorem applyAppend_hookCtx (s : State) : (s.applyAppend).hookCtx = s.hookCtx := rfl
@[simp] theorem applyAppend_crcAcc (s : State) : (s.applyAppend).crcAcc = crc16 s.response := rfl
@[simp] theorem applyAppend_crcMatch (s : State) : (s.applyAppend).crcMatch = s.crcMatch := rfl
@[simp] theorem applyAppend_cfgError (s : State) : (s.applyAppend).cfgError = s.cfgError := rfl
@[simp] theorem applyAppend_configured (s : State) : (s.applyAppend).configured = s.configured := rfl
@[simp] theorem applyAppend_result (s : State) : (s.applyAppend).result = s.result := rfl
@[simp] theorem applyAppend_tx (s : State) : (s.applyAppend).tx = memWrite s.tx s.txLen (leBytes (crc16 s.response)) := rfl
@[simp] theorem applyAppend_txLen (s : State) : (s.applyAppend).txLen = s.txLen + 2 := rfl
@[simp] theorem applyAppend_reqFc (s : State) : (s.applyAppend).reqFc = s.reqFc := rfl
@[simp] theorem applyAppend_reqFieldA (s : State) : (s.applyAppend).reqFieldA = s.reqFieldA := rfl
@[simp] theorem applyAppend_reqFieldB (s : State) : (s.applyAppend).reqFieldB = s.reqFieldB := rfl
@[simp] theorem applyAppend_reqKind (s : State) : (s.applyAppend).reqKind = s.reqKind := rfl
@[simp] theorem applyAppend_tw (s : State) : (s.applyAppend).tw = s.tw := rfl
@[simp] theorem applyAppend_inputs (s : State) : (s.applyAppend).inputs = s.inputs := rfl
@[simp] theorem applyAppend_gaps (s : State) : (s.applyAppend).gaps = s.gaps := rfl
@[simp] theorem applyAppend_out (s : State) : (s.applyAppend).out = s.out := rfl

/-! ### `flagConfigured` -/

@[simp] theorem flagConfigured_hr (s : State) : (s.flagConfigured).hr = s.hr := rfl
@[simp] theorem flagConfigured_ir (s : State) : (s.flagConfigured).ir = s.ir := rfl
@[simp] theorem flagConfigured_syncState (s : State) : (s.flagConfigured).syncState = s.syncState := rfl
@[simp] theorem flagConfigured_pendingLen (s : State) : (s.flagConfigured).pendingLen = s.pendingLen := rfl
@[simp] theorem flagConfigured_lastActivity (s : State) : (s.flagConfigured).lastActivity = s.lastActivity := rfl
@[simp] theorem flagConfigured_rx (s : State) : (s.flagConfigured).rx = s.rx := rfl
@[simp] theorem flagConfigured_timeout (s : State) : (s.flagConfigured).timeout = s.timeout := rfl
@[simp] theorem flagConfigured_deviceAddr (s : State) : (s.flagConfigured).deviceAddr = s.deviceAddr := rfl
@[simp] theorem flagConfigured_inputCount (s : State) : (s.flagConfigured).inputCount = s.inputCount := rfl
@[simp] theorem flagConfigured_holdingCount (s : State) : (s.flagConfigured).holdingCount = s.holdingCount := rfl
@[simp] theorem flagConfigured_maxReadCount (s : State) : (s.flagConfigured).maxReadCount = s.maxReadCount := rfl
@[simp] theorem flagConfigured_readHookEn (s : State) : (s.flagConfigured).readHookEn = s.readHookEn := rfl
@[simp] theorem flagConfigured_writeHookEn (s : State) : (s.flagConfigured).writeHookEn = s.writeHookEn := rfl
@[simp] theorem flagConfigured_hookCtx (s : State) : (s.flagConfigured).hookCtx = s.hookCtx := rfl
@[simp] theorem flagConfigured_crcAcc (s : State) : (s.flagConfigured).crcAcc = s.crcAcc := rfl
@[simp] theorem flagConfigured_crcMatch (s : State) : (s.flagConfigured).crcMatch = s.crcMatch := rfl
@[simp] theorem flagConfigured_cfgError (s : State) : (s.flagConfigured).cfgError = false := rfl
@[simp] theorem flagConfigured_configured (s : State) : (s.flagConfigured).configured = true := rfl
@[simp] theorem flagConfigured_result (s : State) : (s.flagConfigured).result = s.result := rfl
@[simp] theorem flagConfigured_tx (s : State) : (s.flagConfigured).tx = s.tx := rfl
@[simp] theorem flagConfigured_txLen (s : State) : (s.flagConfigured).txLen = s.txLen := rfl
@[simp] theorem flagConfigured_reqFc (s : State) : (s.flagConfigured).reqFc = s.reqFc := rfl
@[simp] theorem flagConfigured_reqFieldA (s : State) : (s.flagConfigured).reqFieldA = s.reqFieldA := rfl
@[simp] theorem flagConfigured_reqFieldB (s : State) : (s.flagConfigured).reqFieldB = s.reqFieldB := rfl
@[simp] theorem flagConfigured_reqKind (s : State) : (s.flagConfigured).reqKind = s.reqKind := rfl
@[simp] theorem flagConfigured_tw (s : State) : (s.flagConfigured).tw = s.tw := rfl
@[simp] theorem flagConfigured_inputs (s : State) : (s.flagConfigured).inputs = s.inputs := rfl
@[simp] theorem flagConfigured_gaps (s : State) : (s.flagConfigured).gaps = s.gaps := rfl
@[simp] theorem flagConfigured_out (s : State) : (s.flagConfigured).out = s.out := rfl

/-! ### `flagCfgError` -/

@[simp] theorem flagCfgError_hr (s : State) : (s.flagCfgError).hr = s.hr := rfl
@[simp] theorem flagCfgError_ir (s : State) : (s.flagCfgError).ir = s.ir := rfl
@[simp] theorem flagCfgError_syncState (s : State) : (s.flagCfgError).syncState = s.syncState := rfl
@[simp] theorem flagCfgError_pendingLen (s : State) : (s.flagCfgError).pendingLen = s.pendingLen := rfl
@[simp] theorem flagCfgError_lastActivity (s : State) : (s.flagCfgError).lastActivity = s.lastActivity := rfl
@[simp] theorem flagCfgError_rx (s : State) : (s.flagCfgError).rx = s.rx := rfl
@[simp] theorem flagCfgError_timeout (s : State) : (s.flagCfgError).timeout = s.timeout := rfl
@[simp] theorem flagCfgError_deviceAddr (s : State) : (s.flagCfgError).deviceAddr = s.deviceAddr := rfl
@[simp] theorem flagCfgError_inputCount (s : State) : (s.flagCfgError).inputCount = s.inputCount := rfl
@[simp] theorem flagCfgError_holdingCount (s : State) : (s.flagCfgError).holdingCount = s.holdingCount := rfl
@[simp] theorem flagCfgError_maxReadCount (s : State) : (s.flagCfgError).maxReadCount = s.maxReadCount := rfl
@[simp] theorem flagCfgError_readHookEn (s : State) : (s.flagCfgError).readHookEn = s.readHookEn := rfl
@[simp] theorem flagCfgError_writeHookEn (s : State) : (s.flagCfgError).writeHookEn = s.writeHookEn := rfl
@[simp] theorem flagCfgError_hookCtx (s : State) : (s.flagCfgError).hookCtx = s.hookCtx := rfl
@[simp] theorem flagCfgError_crcAcc (s : State) : (s.flagCfgError).crcAcc = s.crcAcc := rfl
@[simp] theorem flagCfgError_crcMatch (s : State) : (s.flagCfgError).crcMatch = s.crcMatch := rfl
@[simp] theorem flagCfgError_cfgError (s : State) : (s.flagCfgError).cfgError = true := rfl
@[simp] theorem flagCfgError_configured (s : State) : (s.flagCfgError).configured = false := rfl
@[simp] theorem flagCfgError_result (s : State) : (s.flagCfgError).result = s.result := rfl
@[simp] theorem flagCfgError_tx (s : State) : (s.flagCfgError).tx = s.tx := rfl
@[simp] theorem flagCfgError_txLen (s : State) : (s.flagCfgError).txLen = s.txLen := rfl
@[simp] theorem flagCfgError_reqFc (s : State) : (s.flagCfgError).reqFc = s.reqFc := rfl
@[simp] theorem flagCfgError_reqFieldA (s : State) : (s.flagCfgError).reqFieldA = s.reqFieldA := rfl
@[simp] theorem flagCfgError_reqFieldB (s : State) : (s.flagCfgError).reqFieldB = s.reqFieldB := rfl
@[simp] theorem flagCfgError_reqKind (s : State) : (s.flagCfgError).reqKind = s.reqKind := rfl
@[simp] theorem flagCfgError_tw (s : State) : (s.flagCfgError).tw = s.tw := rfl
@[simp] theorem flagCfgError_inputs (s : State) : (s.flagCfgError).inputs = s.inputs := rfl
@[simp] theorem flagCfgError_gaps (s : State) : (s.flagCfgError).gaps = s.gaps := rfl
@[simp] theorem flagCfgError_out (s : State) : (s.flagCfgError).out = s.out := rfl

/-! ### `coreReset` -/

@[simp] theorem coreReset_hr (s : State) : (s.coreReset).hr = s.hr := rfl
@[simp] theorem coreReset_ir (s : State) : (s.coreReset).ir = s.ir := rfl
@[simp] theorem coreReset_syncState (s : State) : (s.coreReset).syncState = .idle := rfl
@[simp] theorem coreReset_pendingLen (s : State) : (s.coreReset).pendingLen = 0 := rfl
@[simp] theorem coreReset_lastActivity (s : State) : (s.coreReset).lastActivity = 0 := rfl
@[simp] theorem coreReset_rx (s : State) : (s.coreReset).rx = Frame.mk 0 0 0 0 0 0 0 0 := rfl
@[simp] theorem coreReset_timeout (s : State) : (s.coreReset).timeout = 0 := rfl
@[simp] theorem coreReset_deviceAddr (s : State) : (s.coreReset).deviceAddr = 0 := rfl
@[simp] theorem coreReset_inputCount (s : State) : (s.coreReset).inputCount = 0 := rfl
@[simp] theorem coreReset_holdingCount (s : State) : (s.coreReset).holdingCount = 0 := rfl
@[simp] theorem coreReset_maxReadCount (s : State) : (s.coreReset).maxReadCount = 0 := rfl
@[simp] theorem coreReset_readHookEn (s : State) : (s.coreReset).readHookEn = false := rfl
@[simp] theorem coreReset_writeHookEn (s : State) : (s.coreReset).writeHookEn = false := rfl
@[simp] theorem coreReset_hookCtx (s : State) : (s.coreReset).hookCtx = 0 := rfl
@[simp] theorem coreReset_crcAcc (s : State) : (s.coreReset).crcAcc = Config.crcSeed := rfl
@[simp] theorem coreReset_crcMatch (s : State) : (s.coreReset).crcMatch = false := rfl
@[simp] theorem coreReset_cfgError (s : State) : (s.coreReset).cfgError = false := rfl
@[simp] theorem coreReset_configured (s : State) : (s.coreReset).configured = false := rfl
@[simp] theorem coreReset_result (s : State) : (s.coreReset).result = Result.idleResult := rfl
@[simp] theorem coreReset_tx (s : State) : (s.coreReset).tx = List.replicate (txBufLen 0) 0 := rfl
@[simp] theorem coreReset_txLen (s : State) : (s.coreReset).txLen = 0 := rfl
@[simp] theorem coreReset_reqFc (s : State) : (s.coreReset).reqFc = 0 := rfl
@[simp] theorem coreReset_reqFieldA (s : State) : (s.coreReset).reqFieldA = 0 := rfl
@[simp] theorem coreReset_reqFieldB (s : State) : (s.coreReset).reqFieldB = 0 := rfl
@[simp] theorem coreReset_reqKind (s : State) : (s.coreReset).reqKind = .unknown := rfl
@[simp] theorem coreReset_tw (s : State) : (s.coreReset).tw = s.tw := rfl
@[simp] theorem coreReset_inputs (s : State) : (s.coreReset).inputs = s.inputs := rfl
@[simp] theorem coreReset_gaps (s : State) : (s.coreReset).gaps = s.gaps := rfl
@[simp] theorem coreReset_out (s : State) : (s.coreReset).out = s.out := rfl

/-! ### `loadConfig` -/

@[simp] theorem loadConfig_hr (c : Cfg) (s : State) : ((loadConfig c s)).hr = bindArray s.hr c.holdingArray := rfl
@[simp] theorem loadConfig_ir (c : Cfg) (s : State) : ((loadConfig c s)).ir = bindArray s.ir c.inputArray := rfl
@[simp] theorem loadConfig_syncState (c : Cfg) (s : State) : ((loadConfig c s)).syncState = s.syncState := rfl
@[simp] theorem loadConfig_pendingLen (c : Cfg) (s : State) : ((loadConfig c s)).pendingLen = s.pendingLen := rfl
@[simp] theorem loadConfig_lastActivity (c : Cfg) (s : State) : ((loadConfig c s)).lastActivity = s.lastActivity := rfl
@[simp] theorem loadConfig_rx (c : Cfg) (s : State) : ((loadConfig c s)).rx = s.rx := rfl
@[simp] theorem loadConfig_timeout (c : Cfg) (s : State) : ((loadConfig c s)).timeout = c.timeout := rfl
@[simp] theorem loadConfig_deviceAddr (c : Cfg) (s : State) : ((loadConfig c s)).deviceAddr = c.deviceAddr := rfl
@[simp] theorem loadConfig_inputCount (c : Cfg) (s : State) : ((loadConfig c s)).inputCount = c.inputCount := rfl
@[simp] theorem loadConfig_holdingCount (c : Cfg) (s : State) : ((loadConfig c s)).holdingCount = c.holdingCount := rfl
@[simp] theorem loadConfig_maxReadCount (c : Cfg) (s : State) : ((loadConfig c s)).maxReadCount = c.maxReadCount := rfl
@[simp] theorem loadConfig_readHookEn (c : Cfg) (s : State) : ((loadConfig c s)).readHookEn = c.readHookEn := rfl
@[simp] theorem loadConfig_writeHookEn (c : Cfg) (s : State) : ((loadConfig c s)).writeHookEn = c.writeHookEn := rfl
@[simp] theorem loadConfig_hookCtx (c : Cfg) (s : State) : ((loadConfig c s)).hookCtx = c.hookCtx := rfl
@[simp] theorem loadConfig_crcAcc (c : Cfg) (s : State) : ((loadConfig c s)).crcAcc = s.crcAcc := rfl
@[simp] theorem loadConfig_crcMatch (c : Cfg) (s : State) : ((loadConfig c s)).crcMatch = s.crcMatch := rfl
@[simp] theorem loadConfig_cfgError (c : Cfg) (s : State) : ((loadConfig c s)).cfgError = s.cfgError := rfl
@[simp] theorem loadConfig_configured (c : Cfg) (s : State) : ((loadConfig c s)).configured = s.configured := rfl
@[simp] theorem loadConfig_result (c : Cfg) (s : State) : ((loadConfig c s)).result = s.result := rfl
@[simp] theorem loadConfig_tx (c : Cfg) (s : State) : ((loadConfig c s)).tx = List.replicate (txBufLen c.maxReadCount) 0 := rfl
@[simp] theorem loadConfig_txLen (c : Cfg) (s : State) : ((loadConfig c s)).txLen = s.txLen := rfl
@[simp] theorem loadConfig_reqFc (c : Cfg) (s : State) : ((loadConfig c s)).reqFc = s.reqFc := rfl
@[simp] theorem loadConfig_reqFieldA (c : Cfg) (s : State) : ((loadConfig c s)).reqFieldA = s.reqFieldA := rfl
@[simp] theorem loadConfig_reqFieldB (c : Cfg) (s : State) : ((loadConfig c s)).reqFieldB = s.reqFieldB := rfl
@[simp] theorem loadConfig_reqKind (c : Cfg) (s : State) : ((loadConfig c s)).reqKind = s.reqKind := rfl
@[simp] theorem loadConfig_tw (c : Cfg) (s : State) : ((loadConfig c s)).tw = s.tw := rfl
@[simp] theorem loadConfig_inputs (c : Cfg) (s : State) : ((loadConfig c s)).inputs = s.inputs := rfl
@[simp] theorem loadConfig_gaps (c : Cfg) (s : State) : ((loadConfig c s)).gaps = s.gaps := rfl
@[simp] theorem loadConfig_out (c : Cfg) (s : State) : ((loadConfig c s)).out = s.out := rfl

/-! ### `firstByte` -/

@[simp] theorem firstByte_hr (b : Byte) (now : Nat) (s : State) : ((firstByte b now s)).hr = s.hr := rfl
@[simp] theorem firstByte_ir (b : Byte) (now : Nat) (s : State) : ((firstByte b now s)).ir = s.ir := rfl
@[simp] theorem firstByte_syncState (b : Byte) (now : Nat) (s : State) : ((firstByte b now s)).syncState = .accumulating := rfl
@[simp] theorem firstByte_pendingLen (b : Byte) (now : Nat) (s : State) : ((firstByte b now s)).pendingLen = 1 := rfl
@[simp] theorem firstByte_lastActivity (b : Byte) (now : Nat) (s : State) : ((firstByte b now s)).lastActivity = s.time now := rfl
@[simp] theorem firstByte_rx (b : Byte) (now : Nat) (s : State) : ((firstByte b now s)).rx = s.rx.set 0 b := rfl
@[simp] theorem firstByte_timeout (b : Byte) (now : Nat) (s : State) : ((firstByte b now s)).timeout = s.timeout := rfl
@[simp] theorem firstByte_deviceAddr (b : Byte) (now : Nat) (s : State) : ((firstByte b now s)).deviceAddr = s.deviceAddr := rfl
@[simp] theorem firstByte_inputCount (b : Byte) (now : Nat) (s : State) : ((firstByte b now s)).inputCount = s.inputCount := rfl
@[simp] theorem firstByte_holdingCount (b : Byte) (now : Nat) (s : State) : ((firstByte b now s)).holdingCount = s.holdingCount := rfl
@[simp] theorem firstByte_maxReadCount (b : Byte) (now : Nat) (s : State) : ((firstByte b now s)).maxReadCount = s.maxReadCount := rfl
@[simp] theorem firstByte_readHookEn (b : Byte) (now : Nat) (s : State) : ((firstByte b now s)).readHookEn = s.readHookEn := rfl
@[simp] theorem firstByte_writeHookEn (b : Byte) (now : Nat) (s : State) : ((firstByte b now s)).writeHookEn = s.writeHookEn := rfl
@[simp] theorem firstByte_hookCtx (b : Byte) (now : Nat) (s : State) : ((firstByte b now s)).hookCtx = s.hookCtx := rfl
@[simp] theorem firstByte_crcAcc (b : Byte) (now : Nat) (s : State) : ((firstByte b now s)).crcAcc = s.crcAcc := rfl
@[simp] theorem firstByte_crcMatch (b : Byte) (now : Nat) (s : State) : ((firstByte b now s)).crcMatch = s.crcMatch := rfl
@[simp] theorem firstByte_cfgError (b : Byte) (now : Nat) (s : State) : ((firstByte b now s)).cfgError = s.cfgError := rfl
@[simp] theorem firstByte_configured (b : Byte) (now : Nat) (s : State) : ((firstByte b now s)).configured = s.configured := rfl
@[simp] theorem firstByte_result (b : Byte) (now : Nat) (s : State) : ((firstByte b now s)).result = Result.idleResult := rfl
@[simp] theorem firstByte_tx (b : Byte) (now : Nat) (s : State) : ((firstByte b now s)).tx = s.tx := rfl
@[simp] theorem firstByte_txLen (b : Byte) (now : Nat) (s : State) : ((firstByte b now s)).txLen = s.txLen := rfl
@[simp] theorem firstByte_reqFc (b : Byte) (now : Nat) (s : State) : ((firstByte b now s)).reqFc = s.reqFc := rfl
@[simp] theorem firstByte_reqFieldA (b : Byte) (now : Nat) (s : State) : ((firstByte b now s)).reqFieldA = s.reqFieldA := rfl
@[simp] theorem firstByte_reqFieldB (b : Byte) (now : Nat) (s : State) : ((firstByte b now s)).reqFieldB = s.reqFieldB := rfl
@[simp] theorem firstByte_reqKind (b : Byte) (now : Nat) (s : State) : ((firstByte b now s)).reqKind = s.reqKind := rfl
@[simp] theorem firstByte_tw (b : Byte) (now : Nat) (s : State) : ((firstByte b now s)).tw = s.tw := rfl
@[simp] theorem firstByte_inputs (b : Byte) (now : Nat) (s : State) : ((firstByte b now s)).inputs = s.inputs := rfl
@[simp] theorem firstByte_gaps (b : Byte) (now : Nat) (s : State) : ((firstByte b now s)).gaps = s.gaps := rfl
@[simp] theorem firstByte_out (b : Byte) (now : Nat) (s : State) : ((firstByte b now s)).out = s.out ++ [.result Result.idleResult] := rfl

/-! ### `discardPending` -/

@[simp] theorem discardPending_hr (s : State) : ((discardPending s)).hr = s.hr := rfl
@[simp] theorem discardPending_ir (s : State) : ((discardPending s)).ir = s.ir := rfl
@[simp] theorem discardPending_syncState (s : State) : ((discardPending s)).syncState = .idle := rfl
@[simp] theorem discardPending_pendingLen (s : State) : ((discardPending s)).pendingLen = 0 := rfl
@[simp] theorem discardPending_lastActivity (s : State) : ((discardPending s)).lastActivity = s.lastActivity := rfl
@[simp] theorem discardPending_rx (s : State) : ((discardPending s)).rx = s.rx := rfl
@[simp] theorem discardPending_timeout (s : State) : ((discardPending s)).timeout = s.timeout := rfl
@[simp] theorem discardPending_deviceAddr (s : State) : ((discardPending s)).deviceAddr = s.deviceAddr := rfl
@[simp] theorem discardPending_inputCount (s : State) : ((discardPending s)).inputCount = s.inputCount := rfl
@[simp] theorem discardPending_holdingCount (s : State) : ((discardPending s)).holdingCount = s.holdingCount := rfl
@[simp] theorem discardPending_maxReadCount (s : State) : ((discardPending s)).maxReadCount = s.maxReadCount := rfl
@[simp] theorem discardPending_readHookEn (s : State) : ((discardPending s)).readHookEn = s.readHookEn := rfl
@[simp] theorem discardPending_writeHookEn (s : State) : ((discardPending s)).writeHookEn = s.writeHookEn := rfl
@[simp] theorem discardPending_hookCtx (s : State) : ((discardPending s)).hookCtx = s.hookCtx := rfl
@[simp] theorem discardPending_crcAcc (s : State) : ((discardPending s)).crcAcc = s.crcAcc := rfl
@[simp] theorem discardPending_crcMatch (s : State) : ((discardPending s)).crcMatch = s.crcMatch := rfl
@[simp] theorem discardPending_cfgError (s : State) : ((discardPending s)).cfgError = s.cfgError := rfl
@[simp] theorem discardPending_configured (s : State) : ((discardPending s)).configured = s.configured := rfl
@[simp] theorem discardPending_result (s : State) : ((discardPending s)).result = s.result := rfl
@[simp] theorem discardPending_tx (s : State) : ((discardPending s)).tx = s.tx := rfl
@[simp] theorem discardPending_txLen (s : State) : ((discardPending s)).txLen = s.txLen := rfl
@[simp] theorem discardPending_reqFc (s : State) : ((discardPending s)).reqFc = s.reqFc := rfl
@[simp] theorem discardPending_reqFieldA (s : State) : ((discardPending s)).reqFieldA = s.reqFieldA := rfl
@[simp] theorem discardPending_reqFieldB (s : State) : ((discardPending s)).reqFieldB = s.reqFieldB := rfl
@[simp] theorem discardPending_reqKind (s : State) : ((discardPending s)).reqKind = s.reqKind := rfl
@[simp] theorem discardPending_tw (s : State) : ((discardPending s)).tw = s.tw := rfl
@[simp] theorem discardPending_inputs (s : State) : ((discardPending s)).inputs = s.inputs := rfl
@[simp] theorem discardPending_gaps (s : State) : ((discardPending s)).gaps = s.gaps := rfl
@[simp] theorem discardPending_out (s : State) : ((discardPending s)).out = s.out := rfl

/-! ### `setFile` -/

@[simp] theorem setFile_syncState (s : State) (k : RegKind) (f : RegFile) : (s.setFile k f).syncState = s.syncState := by cases k <;> rfl
@[simp] theorem setFile_pendingLen (s : State) (k : RegKind) (f : RegFile) : (s.setFile k f).pendingLen = s.pendingLen := by cases k <;> rfl
@[simp] theorem setFile_lastActivity (s : State) (k : RegKind) (f : RegFile) : (s.setFile k f).lastActivity = s.lastActivity := by cases k <;> rfl
@[simp] theorem setFile_rx (s : State) (k : RegKind) (f : RegFile) : (s.setFile k f).rx = s.rx := by cases k <;> rfl
@[simp] theorem setFile_timeout (s : State) (k : RegKind) (f : RegFile) : (s.setFile k f).timeout = s.timeout := by cases k <;> rfl
@[simp] theorem setFile_deviceAddr (s : State) (k : RegKind) (f : RegFile) : (s.setFile k f).deviceAddr = s.deviceAddr := by cases k <;> rfl
@[simp] theorem setFile_inputCount (s : State) (k : RegKind) (f : RegFile) : (s.setFile k f).inputCount = s.inputCount := by cases k <;> rfl
@[simp] theorem setFile_holdingCount (s : State) (k : RegKind) (f : RegFile) : (s.setFile k f).holdingCount = s.holdingCount := by cases k <;> rfl
@[simp] theorem setFile_maxReadCount (s : State) (k : RegKind) (f : RegFile) : (s.setFile k f).maxReadCount = s.maxReadCount := by cases k <;> rfl
@[simp] theorem setFile_readHookEn (s : State) (k : RegKind) (f : RegFile) : (s.setFile k f).readHookEn = s.readHookEn := by cases k <;> rfl
@[simp] theorem setFile_writeHookEn (s : State) (k : RegKind) (f : RegFile) : (s.setFile k f).writeHookEn = s.writeHookEn := by cases k <;> rfl
@[simp] theorem setFile_hookCtx (s : State) (k : RegKind) (f : RegFile) : (s.setFile k f).hookCtx = s.hookCtx := by cases k <;> rfl
@[simp] theorem setFile_crcAcc (s : State) (k : RegKind) (f : RegFile) : (s.setFile k f).crcAcc = s.crcAcc := by cases k <;> rfl
@[simp] theorem setFile_crcMatch (s : State) (k : RegKind) (f : RegFile) : (s.setFile k f).crcMatch = s.crcMatch := by cases k <;> rfl
@[simp] theorem setFile_cfgError (s : State) (k : RegKind) (f : RegFile) : (s.setFile k f).cfgError = s.cfgError := by cases k <;> rfl
@[simp] theorem setFile_configured (s : State) (k : RegKind) (f : RegFile) : (s.setFile k f).configured = s.configured := by cases k <;> rfl
@[simp] theorem setFile_result (s : State) (k : RegKind) (f : RegFile) : (s.setFile k f).result = s.result := by cases k <;> rfl
@[simp] theorem setFile_tx (s : State) (k : RegKind) (f : RegFile) : (s.setFile k f).tx = s.tx := by cases k <;> rfl
@[simp] theorem setFile_txLen (s : State) (k : RegKind) (f : RegFile) : (s.setFile k f).txLen = s.txLen := by cases k <;> rfl
@[simp] theorem setFile_reqFc (s : State) (k : RegKind) (f : RegFile) : (s.setFile k f).reqFc = s.reqFc := by cases k <;> rfl
@[simp] theorem setFile_reqFieldA (s : State) (k : RegKind) (f : RegFile) : (s.setFile k f).reqFieldA = s.reqFieldA := by cases k <;> rfl
@[simp] theorem setFile_reqFieldB (s : State) (k : RegKind) (f : RegFile) : (s.setFile k f).reqFieldB = s.reqFieldB := by cases k <;> rfl
@[simp] theorem setFile_reqKind (s : State) (k : RegKind) (f : RegFile) : (s.setFile k f).reqKind = s.reqKind := by cases k <;> rfl
@[simp] theorem setFile_tw (s : State) (k : RegKind) (f : RegFile) : (s.setFile k f).tw = s.tw := by cases k <;> rfl
@[simp] theorem setFile_inputs (s : State) (k : RegKind) (f : RegFile) : (s.setFile k f).inputs = s.inputs := by cases k <;> rfl
@[simp] theorem setFile_gaps (s : State) (k : RegKind) (f : RegFile) : (s.setFile k f).gaps = s.gaps := by cases k <;> rfl
@[simp] theorem setFile_out (s : State) (k : RegKind) (f : RegFile) : (s.setFile k f).out = s.out := by cases k <;> rfl

/-! ### `setReg` -/

@[simp] theorem setReg_syncState (s : State) (k : RegKind) (i : Nat) (v : Word) : (s.setReg k i v).syncState = s.syncState := by cases k <;> rfl
@[simp] theorem setReg_pendingLen (s : State) (k : RegKind) (i : Nat) (v : Word) : (s.setReg k i v).pendingLen = s.pendingLen := by cases k <;> rfl
@[simp] theorem setReg_lastActivity (s : State) (k : RegKind) (i : Nat) (v : Word) : (s.setReg k i v).lastActivity = s.lastActivity := by cases k <;> rfl
@[simp] theorem setReg_rx (s : State) (k : RegKind) (i : Nat) (v : Word) : (s.setReg k i v).rx = s.rx := by cases k <;> rfl
@[simp] theorem setReg_timeout (s : State) (k : RegKind) (i : Nat) (v : Word) : (s.setReg k i v).timeout = s.timeout := by cases k <;> rfl
@[simp] theorem setReg_deviceAddr (s : State) (k : RegKind) (i : Nat) (v : Word) : (s.setReg k i v).deviceAddr = s.deviceAddr := by cases k <;> rfl
@[simp] theorem setReg_inputCount (s : State) (k : RegKind) (i : Nat) (v : Word) : (s.setReg k i v).inputCount = s.inputCount := by cases k <;> rfl
@[simp] theorem setReg_holdingCount (s : State) (k : RegKind) (i : Nat) (v : Word) : (s.setReg k i v).holdingCount = s.holdingCount := by cases k <;> rfl
@[simp] theorem setReg_maxReadCount (s : State) (k : RegKind) (i : Nat) (v : Word) : (s.setReg k i v).maxReadCount = s.maxReadCount := by cases k <;> rfl
@[simp] theorem setReg_readHookEn (s : State) (k : RegKind) (i : Nat) (v : Word) : (s.setReg k i v).readHookEn = s.readHookEn := by cases k <;> rfl
@[simp] theorem setReg_writeHookEn (s : State) (k : RegKind) (i : Nat) (v : Word) : (s.setReg k i v).writeHookEn = s.writeHookEn := by cases k <;> rfl
@[simp] theorem setReg_hookCtx (s : State) (k : RegKind) (i : Nat) (v : Word) : (s.setReg k i v).hookCtx = s.hookCtx := by cases k <;> rfl
@[simp] theorem setReg_crcAcc (s : State) (k : RegKind) (i : Nat) (v : Word) : (s.setReg k i v).crcAcc = s.crcAcc := by cases k <;> rfl
@[simp] theorem setReg_crcMatch (s : State) (k : RegKind) (i : Nat) (v : Word) : (s.setReg k i v).crcMatch = s.crcMatch := by cases k <;> rfl
@[simp] theorem setReg_cfgError (s : State) (k : RegKind) (i : Nat) (v : Word) : (s.setReg k i v).cfgError = s.cfgError := by cases k <;> rfl
@[simp] theorem setReg_configured (s : State) (k : RegKind) (i : Nat) (v : Word) : (s.setReg k i v).configured = s.configured := by cases k <;> rfl
@[simp] theorem setReg_result (s : State) (k : RegKind) (i : Nat) (v : Word) : (s.setReg k i v).result = s.result := by cases k <;> rfl
@[simp] theorem setReg_tx (s : State) (k : RegKind) (i : Nat) (v : Word) : (s.setReg k i v).tx = s.tx := by cases k <;> rfl
@[simp] theorem setReg_txLen (s : State) (k : RegKind) (i : Nat) (v : Word) : (s.setReg k i v).txLen = s.txLen := by cases k <;> rfl
@[simp] theorem setReg_reqFc (s : State) (k : RegKind) (i : Nat) (v : Word) : (s.setReg k i v).reqFc = s.reqFc := by cases k <;> rfl
@[simp] theorem setReg_reqFieldA (s : State) (k : RegKind) (i : Nat) (v : Word) : (s.setReg k i v).reqFieldA = s.reqFieldA := by cases k <;> rfl
@[simp] theorem setReg_reqFieldB (s : State) (k : RegKind) (i : Nat) (v : Word) : (s.setReg k i v).reqFieldB = s.reqFieldB := by cases k <;> rfl
@[simp] theorem setReg_reqKind (s : State) (k : RegKind) (i : Nat) (v : Word) : (s.setReg k i v).reqKind = s.reqKind := by cases k <;> rfl
@[simp] theorem setReg_tw (s : State) (k : RegKind) (i : Nat) (v : Word) : (s.setReg k i v).tw = s.tw := by cases k <;> rfl
@[simp] theorem setReg_inputs (s : State) (k : RegKind) (i : Nat) (v : Word) : (s.setReg k i v).inputs = s.inputs := by cases k <;> rfl
@[simp] theorem setReg_gaps (s : State) (k : RegKind) (i : Nat) (v : Word) : (s.setReg k i v).gaps = s.gaps := by cases k <;> rfl
@[simp] theorem setReg_out (s : State) (k : RegKind) (i : Nat) (v : Word) : (s.setReg k i v).out = s.out := by cases k <;> rfl

/-! ### `status`: what the host may sample (R32) -/

@[simp] theorem status_syncState (s : State) : s.status.syncState = s.syncState := rfl
@[simp] theorem status_pendingLen (s : State) : s.status.pendingLen = s.pendingLen := rfl
@[simp] theorem status_result (s : State) : s.status.result = s.result := rfl
@[simp] theorem status_cfgError (s : State) : s.status.cfgError = s.cfgError := rfl
@[simp] theorem status_configured (s : State) : s.status.configured = s.configured := rfl
@[simp] theorem emit_status (s : State) (o : Output) : (s.emit o).status = s.status := rfl
@[simp] theorem txWrite_status (s : State) (n : Nat) (bs : List Byte) : (s.txWrite n bs).status = s.status := rfl
@[simp] theorem setTxLen_status (s : State) (n : Nat) : (s.setTxLen n).status = s.status := rfl
@[simp] theorem latch_status (s : State) (i : Instr) : (s.latch i).status = s.status := rfl
@[simp] theorem applyVerify_status (s : State) : s.applyVerify.status = s.status := rfl
@[simp] theorem applyAppend_status (s : State) : s.applyAppend.status = s.status := rfl
@[simp] theorem setReg_status (s : State) (k : RegKind) (i : Nat) (v : Word) : (s.setReg k i v).status = s.status := by cases k <;> rfl
@[simp] theorem toIdle_status (s : State) : s.toIdle.status = { s.status with syncState := .idle, pendingLen := 0 } := rfl
@[simp] theorem report_status (s : State) (r : Result) : (s.report r).status = { s.status with result := r } := rfl

end Sys2Proof.Machine
end

