-- ==== Sys2Proof/Laws/Bank.lean ====
section
/-! SUPPORT. The register bank through its one read and its one write: what a write leaves in every register, and what other
updates leave alone. -/

namespace Sys2Proof.Machine

@[simp] theorem setReg_file_same (s : State) (k : RegKind) (i : Nat) (v : Word) :
    (s.setReg k i v).file k = RegFile.mk (s.file k).epoch (Memory.write (s.file k).cells i v) := by
  cases k <;> rfl

theorem setReg_file_other (s : State) (k k' : RegKind) (i : Nat) (v : Word) (h : k' ≠ k) :
    (s.setReg k i v).file k' = s.file k' := by
  cases k <;> cases k' <;> first | rfl | exact absurd rfl h

@[simp] theorem setReg_hr_input (s : State) (i : Nat) (v : Word) : (s.setReg .input i v).hr = s.hr := rfl

@[simp] theorem setReg_ir_holding (s : State) (i : Nat) (v : Word) : (s.setReg .holding i v).ir = s.ir := rfl

@[simp] theorem setReg_hr_holding (s : State) (i : Nat) (v : Word) :
    (s.setReg .holding i v).hr = RegFile.mk s.hr.epoch (Memory.write s.hr.cells i v) := rfl

@[simp] theorem setReg_ir_input (s : State) (i : Nat) (v : Word) :
    (s.setReg .input i v).ir = RegFile.mk s.ir.epoch (Memory.write s.ir.cells i v) := rfl

/-- The written register holds the value written. -/
@[simp] theorem reg_setReg_same (s : State) (k : RegKind) (i : Nat) (v : Word) : (s.setReg k i v).reg k i = v := by
  simp [State.reg, Memory.read_write_same]

/-- Every other register of both arrays keeps its value. -/
theorem reg_setReg_other (s : State) (k k' : RegKind) (i j : Nat) (v : Word) (h : ¬(k' = k ∧ j = i)) :
    (s.setReg k i v).reg k' j = s.reg k' j := by
  by_cases hk : k' = k
  · subst hk
    simp [State.reg, Memory.read_write_other _ _ _ _ (fun hj => h ⟨rfl, hj⟩)]
  · simp [State.reg, setReg_file_other _ _ _ _ _ hk]

/-- A register's value depends on the two arrays alone. -/
theorem reg_congr {s t : State} (hh : t.hr = s.hr) (hi : t.ir = s.ir) (k : RegKind) (i : Nat) : t.reg k i = s.reg k i := by
  cases k <;> simp [State.reg, State.file, hh, hi]

@[simp] theorem setReg_size (s : State) (k k' : RegKind) (i : Nat) (v : Word) : (s.setReg k i v).size k' = s.size k' := by
  cases k' <;> simp [State.size]

@[simp] theorem setReg_hostSize (s : State) (k k' : RegKind) (i : Nat) (v : Word) :
    (s.setReg k i v).hostSize k' = s.hostSize k' := by
  simp [State.hostSize]

/-! ## Ranges -/

/-- R98: the one bounds check, as a proposition. -/
@[simp] theorem inRange_iff (s : State) (k : RegKind) (a n : Nat) : s.inRange k a n = true ↔ a + n ≤ s.size k := by
  simp [State.inRange]

@[simp] theorem txWrite_size (s : State) (n : Nat) (bs : List Byte) (k : RegKind) : (s.txWrite n bs).size k = s.size k := by
  cases k <;> rfl

@[simp] theorem latch_size (s : State) (i : Instr) (k : RegKind) : (s.latch i).size k = s.size k := by
  cases k <;> rfl

end Sys2Proof.Machine
end

