-- ==== Sys2Proof/Laws/Buffer.lean ====
section
/-! SUPPORT. Reading and writing byte sequences: what `memWrite` leaves at, before and behind the written bytes. -/

namespace Sys2Proof

@[simp] theorem leBytes_length (v : Word) : (leBytes v).length = 2 := rfl

/-- A write that starts inside or at the end of the buffer and stays within it keeps the buffer's size. -/
theorem memWrite_length (buf : List Byte) (n : Nat) (v : List Byte) (h : n + v.length ≤ buf.length) :
    (memWrite buf n v).length = buf.length := by
  simp only [memWrite, List.length_append, List.length_take, List.length_drop]
  omega

/-- A write that starts inside or at the end of the buffer makes it as long as it must be, and no longer. -/
theorem memWrite_length_max (buf : List Byte) (n : Nat) (v : List Byte) (h : n ≤ buf.length) :
    (memWrite buf n v).length = max buf.length (n + v.length) := by
  simp only [memWrite, List.length_append, List.length_take, List.length_drop]
  omega

/-- Writing directly behind the first `n` bytes extends what is read from the start by the bytes written. -/
theorem memRead_memWrite_behind (buf : List Byte) (n : Nat) (v : List Byte) (h : n ≤ buf.length) :
    memRead (memWrite buf n v) 0 (n + v.length) = memRead buf 0 n ++ v := by
  have hn : (buf.take n).length = n := by simp [h]
  simp only [memRead, memWrite, List.drop_zero]
  rw [List.take_append_of_le_length (by simp [hn])]
  exact List.take_of_length_le (by simp [hn])

/-- What lies before the written bytes is unchanged. -/
theorem memRead_memWrite_before (buf : List Byte) (n m : Nat) (v : List Byte) (h : m ≤ n) (hn : n ≤ buf.length) :
    memRead (memWrite buf n v) 0 m = memRead buf 0 m := by
  simp only [memRead, memWrite, List.drop_zero, List.append_assoc]
  rw [List.take_append_of_le_length (by simp; omega), List.take_take, Nat.min_eq_left h]

/-- Bytes written at the start of the buffer are read back. -/
theorem memRead_memWrite_start (buf v : List Byte) : memRead (memWrite buf 0 v) 0 v.length = v := by
  simpa [memRead] using memRead_memWrite_behind buf 0 v (Nat.zero_le _)

/-- Bytes written are there: a buffer is at least as long as what has been written to it. -/
theorem le_memWrite_length (buf : List Byte) (n : Nat) (v : List Byte) (h : n ≤ buf.length) :
    n + v.length ≤ (memWrite buf n v).length := by
  simp only [memWrite, List.length_append, List.length_take, List.length_drop]
  omega

end Sys2Proof
end

