-- ==== Sys2Proof/Laws/PerInstr.lean ====
section
/-! SUPPORT. Facts about every request as syntax, one lemma per constructor. -/

namespace Sys2Proof.Laws.EncodedFrameVerifies

/-- R60, R63, R84: the frame of a request has the request's address and function code in its first two bytes, and carries the
CRC of its first six bytes, so it verifies. -/
def Statement (i : Instr) : Prop :=
  (encode i).b0 = i.addr ∧ (encode i).b1 = i.functionCode ∧ (encode i).crcField = crc16 (encode i).body

theorem le16_lo8_hi8 (v : Word) : le16 (lo8 v) (hi8 v) = v := by
  apply BitVec.eq_of_toNat_eq
  have h := v.isLt
  simp only [le16, lo8, hi8, BitVec.toNat_append, BitVec.toNat_setWidth, BitVec.toNat_ushiftRight, Nat.shiftRight_eq_div_pow]
  rw [← Nat.shiftLeft_add_eq_or_of_lt (Nat.mod_lt _ (by decide)), Nat.shiftLeft_eq]
  omega

theorem rhr (addr : Byte) (start count : Word) : Statement (.rhr addr start count) := ⟨rfl, rfl, le16_lo8_hi8 _⟩

theorem rir (addr : Byte) (start count : Word) : Statement (.rir addr start count) := ⟨rfl, rfl, le16_lo8_hi8 _⟩

theorem wsr (addr : Byte) (reg value : Word) : Statement (.wsr addr reg value) := ⟨rfl, rfl, le16_lo8_hi8 _⟩

theorem illfn (addr fc : Byte) (a b : Word) : Statement (.illfn addr fc a b) := ⟨rfl, rfl, le16_lo8_hi8 _⟩

end Sys2Proof.Laws.EncodedFrameVerifies
end

