-- ==== Sys2Proof/Laws/Txn.lean ====
section
/-! SUPPORT. Transactions: how actions chain, and everything the environment can do between two of them. A gap changes the two
register arrays, the outputs and the list of gaps, and nothing else of the core, unless a `Reset` falls in it. -/

namespace Sys2Proof.Machine

/-! ## Chaining -/

@[simp] theorem Txn.run_andThen (s : State) (f : State → Txn) : (Txn.run s).andThen f = f s := rfl

@[simp] theorem Txn.cut_andThen (s : State) (f : State → Txn) : (Txn.cut s).andThen f = .cut s := rfl

@[simp] theorem Txn.stop_andThen (r : Refusal) (f : State → Txn) : (Txn.stop r).andThen f = .stop r := rfl

@[simp] theorem Txn.run_outcome (s : State) : (Txn.run s).outcome = .next s := rfl

@[simp] theorem Txn.cut_outcome (s : State) : (Txn.cut s).outcome = .next s := rfl

@[simp] theorem Txn.stop_outcome (r : Refusal) : (Txn.stop r).outcome = .refused r := rfl

/-- A chain that runs to its end ran through its middle. -/
theorem Txn.andThen_run {t : Txn} {f : State → Txn} {u : State} (h : t.andThen f = .run u) :
    ∃ s, t = .run s ∧ f s = .run u := by
  cases t with
  | run s => exact ⟨s, rfl, h⟩
  | cut s => cases h
  | stop r => cases h

/-- A chain that is cut was cut in its first or in its second part. -/
theorem Txn.andThen_cut {t : Txn} {f : State → Txn} {u : State} (h : t.andThen f = .cut u) :
    t = .cut u ∨ ∃ s, t = .run s ∧ f s = .cut u := by
  cases t with
  | run s => exact .inr ⟨s, rfl, h⟩
  | cut s => exact .inl h
  | stop r => cases h

/-- A chain that stops did so in its first or in its second part. -/
theorem Txn.andThen_stop {t : Txn} {f : State → Txn} {r : Refusal} (h : t.andThen f = .stop r) :
    t = .stop r ∨ ∃ s, t = .run s ∧ f s = .stop r := by
  cases t with
  | run s => exact .inr ⟨s, rfl, h⟩
  | cut s => cases h
  | stop r' => exact .inl h

/-- A transaction that answers a next state ran to its end or was cut. -/
theorem Txn.outcome_next {t : Txn} {u : State} (h : t.outcome = .next u) : t = .run u ∨ t = .cut u := by
  cases t with
  | run s => exact .inl (by cases h; rfl)
  | cut s => exact .inr (by cases h; rfl)
  | stop r => cases h

/-! ## What host accesses leave alone -/

/-- `t` differs from `s` in the register arrays, the gaps and the outputs at most. -/
def SameCore (s t : State) : Prop := t = { s with hr := t.hr, ir := t.ir, gaps := t.gaps, out := t.out }

theorem SameCore.refl (s : State) : SameCore s s := rfl

theorem SameCore.trans {s t u : State} (h : SameCore s t) (h' : SameCore t u) : SameCore s u := by
  unfold SameCore at *
  rw [h', h]

theorem SameCore.syncState {s t : State} (h : SameCore s t) : t.syncState = s.syncState := by rw [h]
theorem SameCore.pendingLen {s t : State} (h : SameCore s t) : t.pendingLen = s.pendingLen := by rw [h]
theorem SameCore.lastActivity {s t : State} (h : SameCore s t) : t.lastActivity = s.lastActivity := by rw [h]
theorem SameCore.rx {s t : State} (h : SameCore s t) : t.rx = s.rx := by rw [h]
theorem SameCore.timeout {s t : State} (h : SameCore s t) : t.timeout = s.timeout := by rw [h]
theorem SameCore.deviceAddr {s t : State} (h : SameCore s t) : t.deviceAddr = s.deviceAddr := by rw [h]
theorem SameCore.inputCount {s t : State} (h : SameCore s t) : t.inputCount = s.inputCount := by rw [h]
theorem SameCore.holdingCount {s t : State} (h : SameCore s t) : t.holdingCount = s.holdingCount := by rw [h]
theorem SameCore.maxReadCount {s t : State} (h : SameCore s t) : t.maxReadCount = s.maxReadCount := by rw [h]
theorem SameCore.readHookEn {s t : State} (h : SameCore s t) : t.readHookEn = s.readHookEn := by rw [h]
theorem SameCore.writeHookEn {s t : State} (h : SameCore s t) : t.writeHookEn = s.writeHookEn := by rw [h]
theorem SameCore.hookCtx {s t : State} (h : SameCore s t) : t.hookCtx = s.hookCtx := by rw [h]
theorem SameCore.crcAcc {s t : State} (h : SameCore s t) : t.crcAcc = s.crcAcc := by rw [h]
theorem SameCore.crcMatch {s t : State} (h : SameCore s t) : t.crcMatch = s.crcMatch := by rw [h]
theorem SameCore.cfgError {s t : State} (h : SameCore s t) : t.cfgError = s.cfgError := by rw [h]
theorem SameCore.configured {s t : State} (h : SameCore s t) : t.configured = s.configured := by rw [h]
theorem SameCore.result {s t : State} (h : SameCore s t) : t.result = s.result := by rw [h]
theorem SameCore.tx {s t : State} (h : SameCore s t) : t.tx = s.tx := by rw [h]
theorem SameCore.txLen {s t : State} (h : SameCore s t) : t.txLen = s.txLen := by rw [h]
theorem SameCore.reqFc {s t : State} (h : SameCore s t) : t.reqFc = s.reqFc := by rw [h]
theorem SameCore.reqFieldA {s t : State} (h : SameCore s t) : t.reqFieldA = s.reqFieldA := by rw [h]
theorem SameCore.reqFieldB {s t : State} (h : SameCore s t) : t.reqFieldB = s.reqFieldB := by rw [h]
theorem SameCore.reqKind {s t : State} (h : SameCore s t) : t.reqKind = s.reqKind := by rw [h]
theorem SameCore.tw {s t : State} (h : SameCore s t) : t.tw = s.tw := by rw [h]
theorem SameCore.inputs {s t : State} (h : SameCore s t) : t.inputs = s.inputs := by rw [h]

theorem SameCore.status {s t : State} (h : SameCore s t) : t.status = s.status := by rw [h]; rfl

theorem SameCore.size {s t : State} (h : SameCore s t) (k : RegKind) : t.size k = s.size k := by
  cases k
  · exact h.inputCount
  · exact h.holdingCount

theorem SameCore.hostSize {s t : State} (h : SameCore s t) (k : RegKind) : t.hostSize k = s.hostSize k := by
  simp [State.hostSize, h.configured, h.size]

theorem SameCore.admits {s t : State} (h : SameCore s t) (a : HostAccess) : t.admits a = s.admits a := by
  cases a <;> simp [State.admits, h.hostSize]

@[simp] theorem admits_gaps (s : State) (gs : List Gap) (a : HostAccess) : ({ s with gaps := gs } : State).admits a = s.admits a :=
  SameCore.admits (rfl : SameCore s { s with gaps := gs }) a

theorem SameCore.inRange {s t : State} (h : SameCore s t) (k : RegKind) (a n : Nat) :
    t.inRange k a n = s.inRange k a n := by
  simp [State.inRange, h.size]

/-! ## One host access -/

/-- Everything one host access can do: it reports a register of the host's storage, writes one, or samples the status registers;
or it names a register that there is none of and has no meaning. -/
theorem hostAccess_cases (a : HostAccess) (s : State) :
    (s.admits a = true ∧
      ((∃ k i, a = .read k i ∧ hostAccess a s = .run (s.emit (.hostValue k i (s.reg k i)))) ∨
        (∃ k i v, a = .write k i v ∧ hostAccess a s = .run (s.setReg k i v)) ∨
        (a = .sample ∧ hostAccess a s = .run (s.emit (.hostStatus s.status))))) ∨
    (s.admits a = false ∧ ∃ k i, hostAccess a s = .stop (.hostIndexOutOfRange k i)) := by
  cases a with
  | read k i =>
    by_cases h : i < s.hostSize k
    · exact .inl ⟨by simp [State.admits, h], .inl ⟨k, i, rfl, if_pos h⟩⟩
    · exact .inr ⟨by simp [State.admits, h], k, i, if_neg h⟩
  | write k i v =>
    by_cases h : i < s.hostSize k
    · exact .inl ⟨by simp [State.admits, h], .inr (.inl ⟨k, i, v, rfl, if_pos h⟩)⟩
    · exact .inr ⟨by simp [State.admits, h], k, i, if_neg h⟩
  | sample => exact .inl ⟨rfl, .inr (.inr ⟨rfl, rfl⟩)⟩

theorem sameCore_emit (s : State) (o : Output) : SameCore s (s.emit o) := rfl

theorem sameCore_setReg (s : State) (k : RegKind) (i : Nat) (v : Word) : SameCore s (s.setReg k i v) := by
  cases k <;> rfl

theorem hostAccess_sameCore {a : HostAccess} {s t : State} (h : hostAccess a s = .run t) : SameCore s t := by
  rcases hostAccess_cases a s with ⟨-, ⟨k, i, -, ha⟩ | ⟨k, i, v, -, ha⟩ | ⟨-, ha⟩⟩ | ⟨-, k, i, ha⟩ <;> cases ha.symm.trans h
  · exact sameCore_emit _ _
  · exact sameCore_setReg _ _ _ _
  · exact sameCore_emit _ _

theorem hostAccess_gaps {a : HostAccess} {s t : State} (h : hostAccess a s = .run t) : t.gaps = s.gaps := by
  rcases hostAccess_cases a s with ⟨-, ⟨k, i, -, ha⟩ | ⟨k, i, v, -, ha⟩ | ⟨-, ha⟩⟩ | ⟨-, k, i, ha⟩ <;>
    cases ha.symm.trans h <;> simp

/-- A host access never cuts a transaction. -/
theorem hostAccess_ne_cut (a : HostAccess) (s t : State) : hostAccess a s ≠ .cut t := by
  rcases hostAccess_cases a s with ⟨-, ⟨k, i, -, ha⟩ | ⟨k, i, v, -, ha⟩ | ⟨-, ha⟩⟩ | ⟨-, k, i, ha⟩ <;> simp [ha]

/-- What one host access leaves in a register. -/
theorem hostAccess_reg {a : HostAccess} {s t : State} (h : hostAccess a s = .run t) (k : RegKind) (i : Nat) :
    t.reg k i = valueAfter k i [a] (s.reg k i) := by
  rcases hostAccess_cases a s with ⟨-, ⟨k', i', e, ha⟩ | ⟨k', i', v, e, ha⟩ | ⟨e, ha⟩⟩ | ⟨-, k', i', ha⟩ <;>
    cases ha.symm.trans h
  · subst e
    exact reg_congr (by simp) (by simp) k i
  · subst e
    by_cases hk : k' = k ∧ i' = i
    · obtain ⟨rfl, rfl⟩ := hk
      simp [valueAfter]
    · simp only [valueAfter, hk, if_false]
      exact reg_setReg_other _ _ _ _ _ _ (fun h => hk ⟨h.1.symm, h.2.symm⟩)
  · subst e
    exact reg_congr (by simp) (by simp) k i

/-! ## The accesses of one gap -/

theorem valueAfter_cons (k : RegKind) (i : Nat) (a : HostAccess) (as : List HostAccess) (v : Word) :
    valueAfter k i (a :: as) v = valueAfter k i as (valueAfter k i [a] v) := by
  cases a <;> rfl

theorem valueAfter_append (k : RegKind) (i : Nat) (as bs : List HostAccess) (v : Word) :
    valueAfter k i (as ++ bs) v = valueAfter k i bs (valueAfter k i as v) := by
  induction as generalizing v with
  | nil => rfl
  | cons a as ih => rw [List.cons_append, valueAfter_cons, ih, ← valueAfter_cons]

/-- Everything the accesses of a gap can do when none of them is refused. -/
theorem hostAccesses_run {as : List HostAccess} {s t : State} (h : hostAccesses as s = .run t) :
    SameCore s t ∧ t.gaps = s.gaps ∧ (∀ k i, t.reg k i = valueAfter k i as (s.reg k i)) ∧
      ∀ a ∈ as, s.admits a = true := by
  induction as generalizing s with
  | nil => cases h; exact ⟨.refl _, rfl, fun _ _ => rfl, by simp⟩
  | cons a as ih =>
    obtain ⟨m, ha, hm⟩ := Txn.andThen_run h
    obtain ⟨hc, hg, hr, hi⟩ := ih hm
    have ham := hostAccess_sameCore ha
    refine ⟨ham.trans hc, hg.trans (hostAccess_gaps ha), fun k i => ?_, fun b hb => ?_⟩
    · rw [hr, hostAccess_reg ha, ← valueAfter_cons]
    · rcases List.mem_cons.mp hb with rfl | hb
      · rcases hostAccess_cases b s with ⟨hin, -⟩ | ⟨-, k, i, hs⟩
        · exact hin
        · cases hs.symm.trans ha
      · rw [← ham.admits]
        exact hi b hb

theorem hostAccesses_ne_cut (as : List HostAccess) (s t : State) : hostAccesses as s ≠ .cut t := by
  induction as generalizing s with
  | nil => simp [hostAccesses]
  | cons a as ih =>
    intro h
    rcases Txn.andThen_cut h with h | ⟨m, -, h⟩
    · exact hostAccess_ne_cut _ _ _ h
    · exact ih m h

/-- Accesses to the host's own storage are never refused. -/
theorem hostAccesses_inRange {as : List HostAccess} {s : State} (h : ∀ a ∈ as, s.admits a = true) :
    ∃ t, hostAccesses as s = .run t := by
  induction as generalizing s with
  | nil => exact ⟨s, rfl⟩
  | cons a as ih =>
    have key : ∀ m, hostAccess a s = .run m → ∃ t, hostAccesses (a :: as) s = .run t := fun m hm => by
      obtain ⟨t, ht⟩ := ih (s := m) fun b hb => by
        rw [(hostAccess_sameCore hm).admits]; exact h b (List.mem_cons_of_mem _ hb)
      exact ⟨t, by simp [hostAccesses, hm, ht]⟩
    rcases hostAccess_cases a s with ⟨-, ⟨k, i, -, ha⟩ | ⟨k, i, v, -, ha⟩ | ⟨-, ha⟩⟩ | ⟨hn, -⟩
    · exact key _ ha
    · exact key _ ha
    · exact key _ ha
    · simp [h a List.mem_cons_self] at hn

/-! ## One point between two actions -/

/-- R51's premise: with no host activity, a point changes nothing. -/
theorem atGap_quiet {s : State} (h : s.gaps = []) : atGap s = .run s := by simp [atGap, h]

/-- Everything that can happen at a point where the transaction goes on. -/
theorem atGap_run {s t : State} (h : atGap s = .run t) :
    SameCore s t ∧ t.gaps = s.gaps.tail ∧ (∀ k i, t.reg k i = s.regAfterGaps k i 1) ∧
      ∀ g ∈ s.gaps.head?, g.resets = false ∧ ∀ a ∈ g.accesses, s.admits a = true := by
  unfold atGap at h
  split at h
  · rename_i hg
    cases h
    exact ⟨.refl _, by simp [hg], by simp [State.regAfterGaps, hg, valueAfter], by simp [hg]⟩
  · rename_i g gs hg
    obtain ⟨m, hm, h⟩ := Txn.andThen_run h
    split at h
    · cases h
    · rename_i hres
      cases h
      obtain ⟨hc, hgm, hr, hi⟩ := hostAccesses_run hm
      have hc' : SameCore s t := SameCore.trans (rfl : SameCore s { s with gaps := gs }) hc
      refine ⟨hc', by simp [hg, hgm], fun k i => ?_, ?_⟩
      · rw [hr]
        simp only [State.regAfterGaps, hg, List.take_succ_cons, List.take_zero, List.flatMap_cons, List.flatMap_nil,
          List.append_nil]
        exact congrArg _ (reg_congr rfl rfl k i)
      · simp only [hg, List.head?_cons, Option.mem_some_iff, forall_eq']
        exact ⟨by simpa using hres, hi⟩

/-- A point that cuts the transaction leaves the core reset. -/
theorem atGap_cut {s t : State} (h : atGap s = .cut t) :
    ∃ g ∈ s.gaps.head?, g.resets = true ∧
      ∃ m, SameCore s m ∧ m.gaps = s.gaps.tail ∧ (∀ k i, m.reg k i = s.regAfterGaps k i 1) ∧ t = m.coreReset := by
  unfold atGap at h
  split at h
  · cases h
  · rename_i g gs hg
    rcases Txn.andThen_cut h with h | ⟨m, hm, h⟩
    · exact absurd h (hostAccesses_ne_cut _ _ _)
    · split at h
      · rename_i hres
        cases h
        obtain ⟨hc, hgm, hr, hi⟩ := hostAccesses_run hm
        refine ⟨g, by simp [hg], hres, m, SameCore.trans (rfl : SameCore s { s with gaps := gs }) hc, by simp [hg, hgm],
          fun k i => ?_, rfl⟩
        rw [hr]
        simp only [State.regAfterGaps, hg, List.take_succ_cons, List.take_zero, List.flatMap_cons, List.flatMap_nil,
          List.append_nil]
        exact congrArg _ (reg_congr rfl rfl k i)
      · cases h

/-- Where the coming host accesses name registers of the host's storage, a point never stops the transaction. -/
theorem atGap_inRange {s : State} (h : s.gapsInRange) : ∀ r, atGap s ≠ .stop r := by
  intro r hr
  unfold atGap at hr
  split at hr
  · cases hr
  · rename_i g gs hg
    obtain ⟨t, ht⟩ := hostAccesses_inRange (as := g.accesses) (s := { s with gaps := gs })
      (fun a ha => by rw [admits_gaps]; exact h g (by simp [hg]) a ha)
    rw [ht, Txn.run_andThen] at hr
    split at hr <;> cases hr

/-- What follows a point keeps the premise on the host's accesses. -/
theorem gapsInRange_of_atGap {s t : State} (h : s.gapsInRange) (hg : atGap s = .run t) : t.gapsInRange := by
  obtain ⟨hc, hgs, -, -⟩ := atGap_run hg
  intro g hgm a ha
  rw [hc.admits]
  exact h g (List.mem_of_mem_tail (hgs ▸ hgm)) a ha

/-- What follows a point keeps the premise that no `Reset` falls inside. -/
theorem noResets_of_atGap {s t : State} (h : s.noResets) (hg : atGap s = .run t) : t.noResets := by
  obtain ⟨-, hgs, -, -⟩ := atGap_run hg
  intro g hgm
  exact h g (List.mem_of_mem_tail (hgs ▸ hgm))

/-- Without a `Reset` inside, a point never cuts the transaction. -/
theorem atGap_noResets {s : State} (h : s.noResets) (t : State) : atGap s ≠ .cut t := by
  intro hc
  obtain ⟨g, hg, hres, -⟩ := atGap_cut hc
  have := h g (List.mem_of_mem_head? hg)
  simp [hres] at this

/-! ## What host accesses put out -/

/-- Answers to the host: values of its registers, and samples that all find the status registers at `st` (R32). -/
def HostAnswers (st : Status) (os : List Output) : Prop :=
  ∀ o ∈ os, (∃ k i v, o = Output.hostValue k i v) ∨ o = Output.hostStatus st

theorem HostAnswers.nil (st : Status) : HostAnswers st [] := by simp [HostAnswers]

theorem HostAnswers.append {st : Status} {os ps : List Output} (h : HostAnswers st os) (h' : HostAnswers st ps) :
    HostAnswers st (os ++ ps) := by
  intro o ho
  rcases List.mem_append.mp ho with ho | ho
  · exact h o ho
  · exact h' o ho

/-- An answer to the host is no frame on the wire. -/
theorem HostAnswers.filter_isTxFrame {st : Status} {os : List Output} (h : HostAnswers st os) :
    os.filter Output.isTxFrame = [] := by
  rw [List.filter_eq_nil_iff]
  intro o ho
  rcases h o ho with ⟨k, i, v, rfl⟩ | rfl <;> simp [Output.isTxFrame]

theorem hostAnswers_answers (s : State) (as : List HostAccess) : HostAnswers s.status (answers s as) := by
  induction as generalizing s with
  | nil => exact .nil _
  | cons a as ih =>
    cases a with
    | read k i =>
      intro o ho
      rcases List.mem_cons.mp ho with rfl | ho
      · exact .inl ⟨_, _, _, rfl⟩
      · exact ih s o ho
    | write k i v => exact setReg_status s k i v ▸ ih (s.setReg k i v)
    | sample =>
      intro o ho
      rcases List.mem_cons.mp ho with rfl | ho
      · exact .inr rfl
      · exact ih s o ho

theorem answers_congr {s t : State} (h : t.hr = s.hr) (h' : t.ir = s.ir) (hs : t.status = s.status) (as : List HostAccess) :
    answers t as = answers s as := by
  induction as generalizing s t with
  | nil => rfl
  | cons a as ih =>
    cases a with
    | read k i => simp only [answers, reg_congr h h', ih h h' hs]
    | write k i v => exact ih (by cases k <;> simp [h]) (by cases k <;> simp [h']) (by simp [hs])
    | sample => simp only [answers, hs, ih h h' hs]

/-- Exactly what the accesses of a gap put out: the answers to the host, in order. -/
theorem hostAccesses_out_eq {as : List HostAccess} {s t : State} (h : hostAccesses as s = .run t) :
    t.out = s.out ++ answers s as := by
  induction as generalizing s with
  | nil => cases h; simp [answers]
  | cons a as ih =>
    obtain ⟨m, ha, hm⟩ := Txn.andThen_run h
    rw [ih hm]
    rcases hostAccess_cases a s with ⟨-, ⟨k, i, rfl, e⟩ | ⟨k, i, v, rfl, e⟩ | ⟨rfl, e⟩⟩ | ⟨-, k, i, e⟩ <;>
      cases e.symm.trans ha
    · simp [answers, answers_congr (s := s) (t := s.emit (.hostValue k i (s.reg k i))) rfl rfl rfl]
    · simp [answers]
    · simp [answers, answers_congr (s := s) (t := s.emit (.hostStatus s.status)) rfl rfl rfl]

/-- At a point between two actions nothing is put out but answers to the host; its samples find the status registers as the point
finds them. -/
theorem atGap_out {s t : State} (h : atGap s = .run t) : ∃ os, t.out = s.out ++ os ∧ HostAnswers s.status os := by
  unfold atGap at h
  split at h
  · cases h
    exact ⟨[], by simp, .nil _⟩
  · rename_i g gs hg
    obtain ⟨m, hm, h⟩ := Txn.andThen_run h
    split at h
    · cases h
    · cases h
      have ho := hostAccesses_out_eq hm
      exact ⟨_, ho, hostAnswers_answers { s with gaps := gs } g.accesses⟩

/-! ## The two plainest points, and what a `Reset` at a point leaves -/

theorem atGap_still {s : State} {gs : List Gap} (h : s.gaps = .still :: gs) : atGap s = .run { s with gaps := gs } := by
  simp [atGap, h, hostAccesses]

theorem atGap_resetting {s : State} {gs : List Gap} (h : s.gaps = .resetting :: gs) :
    atGap s = .cut ({ s with gaps := gs } : State).coreReset := by
  simp [atGap, h, hostAccesses]

/-- R32: a point at which the host samples once: the answer is put out, and nothing else changes. -/
theorem atGap_sampling {s : State} {gs : List Gap} (h : s.gaps = .sampling :: gs) :
    atGap s = .run (({ s with gaps := gs } : State).emit (.hostStatus s.status)) := by
  simp [atGap, h, hostAccesses, hostAccess]
  rfl

/-- R170: the values of R31 hold after a `Reset`. -/
theorem hasResetValues_coreReset (s : State) : s.coreReset.HasResetValues :=
  ⟨rfl, rfl, rfl, rfl, rfl, rfl, rfl, rfl, rfl, rfl, rfl⟩

/-- R170: a `Reset` at a point, whatever the host did there before it. -/
theorem atGap_reset {s : State} {as : List HostAccess} {gs : List Gap} (hg : s.gaps = Gap.mk as true :: gs)
    (ha : ∀ a ∈ as, s.admits a = true) :
    ∃ t, atGap s = .cut t ∧ CutByReset s t gs ∧ (∀ k j, t.reg k j = valueAfter k j as (s.reg k j)) ∧
      t.out = s.out ++ answers s as := by
  obtain ⟨m, hm⟩ := hostAccesses_inRange (as := as) (s := { s with gaps := gs })
    fun a h => by rw [admits_gaps]; exact ha a h
  obtain ⟨hc, hgm, hr, -⟩ := hostAccesses_run hm
  refine ⟨m.coreReset, by simp [atGap, hg, hm], ⟨hasResetValues_coreReset m, hc.inputs, hgm, hc.tw⟩, fun k j => ?_, ?_⟩
  · exact (reg_congr rfl rfl k j).trans ((hr k j).trans (congrArg _ (reg_congr rfl rfl k j)))
  · exact (hostAccesses_out_eq hm).trans (congrArg (s.out ++ ·) (answers_congr (by rfl) (by rfl) (by rfl) as))

end Sys2Proof.Machine
end

