-- ==== Sys2Proof/Laws/Requests.lean ====
section
/-! SUPPORT. What the shared parts of the requests do: the response tail, the exception response and the read loop, first with
no host activity inside (the premise of spec/20_memory.md R51), then in general. -/

namespace Sys2Proof.Machine

/-! ## The response buffer -/

@[simp] theorem response_txWrite_start (s : State) (bs : List Byte) :
    ((s.txWrite 0 bs).setTxLen bs.length).response = bs := by
  simp [State.response, memRead_memWrite_start]

theorem memWrite_zero (buf bs : List Byte) : memWrite buf 0 bs = bs ++ buf.drop bs.length := by simp [memWrite]

/-- Bytes written at the start and then bytes written directly behind them are all of them written at the start. -/
theorem memWrite_memWrite (buf bs cs : List Byte) :
    memWrite (memWrite buf 0 bs) bs.length cs = memWrite buf 0 (bs ++ cs) := by
  simp [memWrite, List.drop_append]

/-! ## With no host activity inside -/

/-- R141 steps 6 and 7. -/
theorem conclude_quiet (r : Result) (s : State) (h : s.gaps = []) : conclude r s = .run (s.toIdle.report r) := by
  simp [conclude, atGap, h]

/-- R141 `Drop`, whole. -/
theorem dropFrame_quiet (s : State) (h : s.gaps = []) : dropFrame s = .run (s.toIdle.report Result.idleResult) :=
  conclude_quiet _ s h

/-- R141 steps 4 to 7 for the body `TX[0 .. TX_LEN-1]`. -/
theorem respond_quiet (r : Result) (s : State) (h : s.gaps = []) :
    respond r s = .run ((((s.applyAppend).emit (.txFrame s.applyAppend.response)).toIdle).report r) := by
  simp [respond, conclude, atGap, h]

/-- The same for a body that stands at the start of `TX`: what is sent is the body and its CRC. -/
theorem respond_quiet_body (r : Result) (s : State) (body rest : List Byte) (h : s.gaps = []) (ht : s.tx = body ++ rest)
    (hl : s.txLen = body.length) :
    respond r s = .run { s with
      tx := withCrc body ++ rest.drop 2, txLen := body.length + 2, crcAcc := crc16 body, syncState := .idle,
      pendingLen := 0, result := r, out := s.out ++ [.txFrame (withCrc body), .result r] } := by
  have ha : memRead (body ++ rest) 0 body.length = body := by simp [memRead]
  have hw : memWrite (body ++ rest) body.length (leBytes (crc16 body)) = withCrc body ++ rest.drop 2 := by
    simp [memWrite, withCrc, List.drop_append]
  have hr : memRead (withCrc body ++ rest.drop 2) 0 (body.length + 2) = withCrc body := by
    rw [memRead, List.drop_zero, List.take_append_of_le_length (by simp [withCrc]),
      List.take_of_length_le (by simp [withCrc])]
  rw [respond_quiet r s h]
  simp only [State.applyAppend, crcApply, ht, hl, ha, Option.getD_none, State.emit, State.response, hr, State.toIdle,
    State.report, hw, List.append_assoc, List.cons_append, List.nil_append]

/-- R155: the exception response, whole. -/
theorem raiseException_quiet (s : State) (addr fc code : Byte) (h : s.gaps = []) :
    raiseException addr fc code s = .run { s with
      tx := withCrc (exceptionBody addr fc code) ++ s.tx.drop 5, txLen := 5,
      crcAcc := crc16 (exceptionBody addr fc code), syncState := .idle, pendingLen := 0,
      result := Result.noActionResult,
      out := s.out ++ [.txFrame (withCrc (exceptionBody addr fc code)), .result Result.noActionResult] } := by
  rw [raiseException, respond_quiet_body _ _ (exceptionBody addr fc code) (s.tx.drop 3) (by simpa using h)
    (by simp [exceptionBody, memWrite]) rfl]
  simp [exceptionBody, State.txWrite, State.setTxLen]

/-- R131: the read observer puts out one event or none, and changes nothing else. -/
theorem readHook_eq (s : State) :
    readHook s = { s with out := s.out ++ if s.readHookEn then [.readEvent s.response s.hookCtx] else [] } := by
  unfold readHook
  split <;> simp [State.emit]

/-- R132: the pre-write observer puts out one event or none, and changes nothing else. -/
theorem preWriteHook_eq (i : Instr) (s : State) :
    preWriteHook i s =
      { s with out := s.out ++ if s.writeHookEn then [.preWriteEvent (encode i).bytes s.hookCtx] else [] } := by
  unfold preWriteHook
  split <;> simp [State.emit]

@[simp] theorem readPayload_length (s : State) (k : RegKind) (a n : Nat) : (readPayload s k a n).length = 2 * n := by
  simp [readPayload, List.length_flatMap, Nat.mul_comm]

theorem readBody_length (s : State) (k : RegKind) (addr fc : Byte) (a n : Nat) :
    (readBody s k addr fc a n).length = 3 + 2 * n := by
  simp [readBody]
  omega

/-- R123's loop leaves the payload of the registers as they stand, directly behind what was written before. -/
theorem readLoop_quiet (k : RegKind) (a n i : Nat) (s : State) (bs : List Byte) (buf : List Byte) (h : s.gaps = [])
    (hb : bs.length = 3 + 2 * i) (hs : s.tx = memWrite buf 0 bs) :
    readLoop k a n i s =
      .run { s with tx := memWrite buf 0 (bs ++ (List.range' i n).flatMap fun j => leBytes (s.reg k (a + j))) } := by
  induction n generalizing i s bs with
  | zero => simp [readLoop, ← hs]
  | succ n ih =>
    have hw : (s.txWrite (3 + 2 * i) (leBytes (s.reg k (a + i)))).tx =
        memWrite buf 0 (bs ++ leBytes (s.reg k (a + i))) := by
      rw [txWrite_tx, hs, ← hb, memWrite_memWrite]
    simp only [readLoop, atGap_quiet h, Txn.run_andThen]
    rw [ih (i + 1) _ (bs ++ leBytes (s.reg k (a + i))) (by simpa using h) (by simp [hb]; omega) hw]
    have hreg : ∀ j, (s.txWrite (3 + 2 * i) (leBytes (s.reg k (a + i)))).reg k j = s.reg k j :=
      fun j => reg_congr rfl rfl k j
    simp only [hreg, List.range'_succ, List.flatMap_cons, List.append_assoc]
    rfl

/-- R123 for a range that passes both checks, the observer included. -/
theorem readRegs_quiet (k : RegKind) (s : State) (addr fc : Byte) (a n : Word) (h : s.gaps = [])
    (hr : a.toNat + n.toNat ≤ s.size k) (hm : n.toNat ≤ s.maxReadCount) :
    let body := readBody s k addr fc a.toNat n.toNat
    readRegs k addr fc a n s = .run { s with
      tx := withCrc body ++ s.tx.drop (5 + 2 * n.toNat), txLen := 5 + 2 * n.toNat, crcAcc := crc16 body,
      syncState := .idle, pendingLen := 0, result := Result.noActionResult,
      out := s.out ++ (if s.readHookEn then [.readEvent body s.hookCtx] else []) ++
        [.txFrame (withCrc body), .result Result.noActionResult] } := by
  intro body
  have hl := readLoop_quiet k a.toNat n.toNat 0 (s.txWrite 0 [addr, fc, BitVec.ofNat 8 (2 * n.toNat)])
    [addr, fc, BitVec.ofNat 8 (2 * n.toNat)] s.tx (by simpa using h) rfl rfl
  have hreg : ∀ j, (s.txWrite 0 [addr, fc, BitVec.ofNat 8 (2 * n.toNat)]).reg k j = s.reg k j :=
    fun j => reg_congr rfl rfl k j
  simp only [hreg, ← List.range_eq_range'] at hl
  rw [show [addr, fc, BitVec.ofNat 8 (2 * n.toNat)] ++ (List.range n.toNat).flatMap (fun j => leBytes (s.reg k (a.toNat + j))) =
    body from rfl] at hl
  have hlen : body.length = 3 + 2 * n.toNat := readBody_length s k addr fc a.toNat n.toNat
  have hdrop : 3 + 2 * n.toNat + 2 = 5 + 2 * n.toNat := by omega
  have hresp : ∀ t : State, t.tx = memWrite s.tx 0 body → t.txLen = 3 + 2 * n.toNat → t.response = body :=
    fun t h1 h2 => by rw [State.response, h1, h2, ← hlen, memRead_memWrite_start]
  unfold readRegs
  show (if _ then _ else _) = _
  rw [if_pos (by simp [hr, hm]), hl, Txn.run_andThen, atGap_quiet (by simpa using h), Txn.run_andThen, readHook_eq,
    hresp _ rfl rfl, respond_quiet_body _ _ body (s.tx.drop (3 + 2 * n.toNat)) (by simpa using h)
      (by simp [memWrite_zero, hlen]) (by simp [hlen])]
  simp [hlen, hdrop, State.setTxLen, State.txWrite]
  rfl

/-! ## With host activity inside -/

/-- After a point, the coming values are the ones the state before it foretold, one point later. -/
theorem regAfterGaps_of_atGap {s t : State} (h : atGap s = .run t) (k : RegKind) (i n : Nat) :
    t.regAfterGaps k i n = s.regAfterGaps k i (n + 1) := by
  obtain ⟨-, hg, hr, -⟩ := atGap_run h
  unfold State.regAfterGaps at *
  rw [hr, hg]
  cases hs : s.gaps with
  | nil => simp [valueAfter]
  | cons g gs => simp [valueAfter_append]

/-- `t` differs from `s` in the register arrays, the gaps, the outputs and the response buffer at most. -/
def SameButTx (s t : State) : Prop :=
  t = { s with hr := t.hr, ir := t.ir, gaps := t.gaps, out := t.out, tx := t.tx }

theorem SameButTx.trans {s t u : State} (h : SameButTx s t) (h' : SameButTx t u) : SameButTx s u := by
  unfold SameButTx at *
  rw [h', h]

theorem sameButTx_txWrite (s : State) (n : Nat) (bs : List Byte) : SameButTx s (s.txWrite n bs) := rfl

theorem SameCore.sameButTx {s t : State} (h : SameCore s t) : SameButTx s t := by
  unfold SameCore at h
  unfold SameButTx
  rw [h]

/-- Everything the read loop can do when it runs to its end (R51, R123): each register is read once the host has acted at all
points up to its own read, and nothing but the host writes a register. -/
theorem readLoop_run {k : RegKind} {a n i : Nat} {s t : State} (h : readLoop k a n i s = .run t)
    (hlen : 3 + 2 * i ≤ s.tx.length) :
    SameButTx s t ∧ t.gaps = s.gaps.drop n ∧ (∀ k' j, t.reg k' j = s.regAfterGaps k' j n) ∧
      3 + 2 * (i + n) ≤ t.tx.length ∧
      memRead t.tx 0 (3 + 2 * (i + n)) = memRead s.tx 0 (3 + 2 * i) ++
        (List.range n).flatMap fun j => leBytes (s.regAfterGaps k (a + i + j) (j + 1)) := by
  induction n generalizing i s with
  | zero =>
    cases h
    exact ⟨rfl, by simp, by simp [State.regAfterGaps, valueAfter], hlen, by simp⟩
  | succ n ih =>
    obtain ⟨m, hm, h⟩ := Txn.andThen_run h
    obtain ⟨hc, hg, hr, -⟩ := atGap_run hm
    have hlm : 3 + 2 * i ≤ m.tx.length := by rw [hc.tx]; exact hlen
    have hl1 := le_memWrite_length m.tx (3 + 2 * i) (leBytes (m.reg k (a + i))) hlm
    rw [leBytes_length] at hl1
    obtain ⟨hs, hgt, hrt, hlt, htx⟩ := ih h (by rw [txWrite_tx]; omega)
    have hreg : ∀ k' j n, (m.txWrite (3 + 2 * i) (leBytes (m.reg k (a + i)))).regAfterGaps k' j n =
        s.regAfterGaps k' j (n + 1) := fun k' j n => by
      rw [← regAfterGaps_of_atGap hm]
      exact congrArg (valueAfter k' j _) (reg_congr rfl rfl k' j)
    have hb := memRead_memWrite_behind m.tx (3 + 2 * i) (leBytes (m.reg k (a + i))) hlm
    rw [leBytes_length, hc.tx] at hb
    refine ⟨hc.sameButTx.trans ((sameButTx_txWrite _ _ _).trans hs), ?_, fun k' j => ?_, by omega, ?_⟩
    · rw [hgt, txWrite_gaps, hg, List.drop_tail]
    · rw [hrt, hreg]
    · rw [show 3 + 2 * (i + (n + 1)) = 3 + 2 * (i + 1 + n) by omega, htx, txWrite_tx, hc.tx,
        show 3 + 2 * (i + 1) = 3 + 2 * i + 2 by omega, hb, List.range_succ_eq_map, List.flatMap_cons, List.append_assoc,
        List.flatMap_map]
      simp only [hreg]
      simp only [hr, Nat.add_zero, Nat.zero_add, Nat.succ_eq_add_one, Nat.add_assoc, Nat.add_comm 1]

/-- Everything the end of a transaction can do when it runs to its end (R141 steps 6 and 7): only the host writes registers, its
samples find `Idle` and 0 beside the old `RESULT` (R32), and the result is reported last. -/
theorem conclude_run {r : Result} {s t : State} (h : conclude r s = .run t) :
    (∃ os, t.out = s.out ++ os ++ [.result r] ∧ HostAnswers { s.status with syncState := .idle, pendingLen := 0 } os) ∧
    (∀ k j, t.reg k j = s.regAfterGaps k j 1) ∧
    t = { s with
      hr := t.hr, ir := t.ir, gaps := s.gaps.tail, out := t.out, syncState := .idle, pendingLen := 0, result := r } := by
  obtain ⟨m, hm, h⟩ := Txn.andThen_run h
  cases h
  obtain ⟨hc, hg, hr, -⟩ := atGap_run hm
  obtain ⟨os, ho, hos⟩ := atGap_out hm
  refine ⟨⟨os, by simp [ho], hos⟩, fun k j => ?_, ?_⟩
  · exact (reg_congr rfl rfl k j).trans ((hr k j).trans (congrArg (valueAfter k j _) (reg_congr rfl rfl k j)))
  · rw [show s.gaps.tail = m.gaps from hg.symm]
    unfold SameCore at hc
    simp only [State.report]
    rw [hc]
    rfl

/-- Everything the response tail can do when it runs to its end (R141 steps 4 to 7): one frame is put on the wire, the core goes
to `Idle`, the result is reported last, and only the host writes registers. Samples find the status registers as they were, and
behind step 6 `Idle` and 0 beside the old `RESULT` (R32). -/
theorem respond_run {r : Result} {s t : State} (h : respond r s = .run t) :
    (∃ os ps qs, t.out = s.out ++ os ++ [.txFrame s.applyAppend.response] ++ ps ++ qs ++ [.result r] ∧
      HostAnswers s.status os ∧ HostAnswers s.status ps ∧
      HostAnswers { s.status with syncState := .idle, pendingLen := 0 } qs) ∧
    (∀ k j, t.reg k j = s.regAfterGaps k j 3) ∧
    t = { s.applyAppend with
      hr := t.hr, ir := t.ir, gaps := s.gaps.tail.tail.tail, out := t.out, syncState := .idle, pendingLen := 0
      result := r } := by
  obtain ⟨m, hm, h⟩ := Txn.andThen_run h
  obtain ⟨n, hn, h⟩ := Txn.andThen_run h
  obtain ⟨⟨qs, hq, hqs⟩, hrt, ht⟩ := conclude_run h
  obtain ⟨hc, hg, -, -⟩ := atGap_run hm
  obtain ⟨hc', hg', -, -⟩ := atGap_run hn
  obtain ⟨os, ho, hos⟩ := atGap_out hm
  obtain ⟨ps, hp, hps⟩ := atGap_out hn
  have hresp : m.response = s.applyAppend.response := by simp only [State.response, hc.tx, hc.txLen]
  have hsm : m.status = s.status := hc.status
  have hsn : n.status = s.status := hc'.status.trans hsm
  refine ⟨⟨os, ps, qs, ?_, hos, hsm ▸ hps, hsn ▸ hqs⟩, fun k j => ?_, ?_⟩
  · simp [hq, hp, ho, hresp]
  · calc t.reg k j = n.regAfterGaps k j 1 := hrt k j
      _ = (m.emit (.txFrame m.response)).regAfterGaps k j 2 := regAfterGaps_of_atGap hn k j 1
      _ = m.regAfterGaps k j 2 := congrArg (valueAfter k j _) (reg_congr rfl rfl k j)
      _ = s.applyAppend.regAfterGaps k j 3 := regAfterGaps_of_atGap hm k j 2
      _ = s.regAfterGaps k j 3 := congrArg (valueAfter k j _) (reg_congr rfl rfl k j)
  · have hgn : n.gaps.tail = s.gaps.tail.tail.tail := by simp [hg', hg]
    rw [ht, ← hgn]
    unfold SameCore at hc hc'
    rw [hc', hc]
    rfl

/-! ## A transaction is never stopped by host accesses to the host's own storage -/

theorem gapsInRange_congr {s t : State} (h : s.gapsInRange) (hg : t.gaps = s.gaps) (hs : ∀ k, t.hostSize k = s.hostSize k) :
    t.gapsInRange := by
  intro g hgm a ha
  rw [show t.admits a = s.admits a by cases a <;> simp [State.admits, hs]]
  exact h g (hg ▸ hgm) a ha

theorem conclude_ne_stop {r : Result} {s : State} (h : s.gapsInRange) (x : Refusal) : conclude r s ≠ .stop x := by
  intro hs
  rcases Txn.andThen_stop hs with hs | ⟨m, -, hs⟩
  · exact atGap_inRange (gapsInRange_congr (t := s.toIdle) h rfl (fun k => by cases k <;> rfl)) x hs
  · cases hs

theorem respond_ne_stop {r : Result} {s : State} (h : s.gapsInRange) (x : Refusal) : respond r s ≠ .stop x := by
  intro hs
  have ha : s.applyAppend.gapsInRange := gapsInRange_congr h rfl (fun k => by cases k <;> rfl)
  rcases Txn.andThen_stop hs with hs | ⟨m, hm, hs⟩
  · exact atGap_inRange ha x hs
  · have he : (m.emit (.txFrame m.response)).gapsInRange :=
      gapsInRange_congr (gapsInRange_of_atGap ha hm) rfl (fun k => by cases k <;> rfl)
    rcases Txn.andThen_stop hs with hs | ⟨n, hn, hs⟩
    · exact atGap_inRange he x hs
    · exact conclude_ne_stop (gapsInRange_of_atGap he hn) x hs

theorem readLoop_ne_stop {k : RegKind} {a n i : Nat} {s : State} (h : s.gapsInRange) (x : Refusal) :
    readLoop k a n i s ≠ .stop x := by
  induction n generalizing i s with
  | zero => simp [readLoop]
  | succ n ih =>
    intro hs
    rcases Txn.andThen_stop hs with hs | ⟨m, hm, hs⟩
    · exact atGap_inRange h x hs
    · exact ih (gapsInRange_congr (t := m.txWrite (3 + 2 * i) (leBytes (m.reg k (a + i)))) (gapsInRange_of_atGap h hm) rfl
        (fun k => by cases k <;> rfl)) hs

/-! ## A transaction cut by a `Reset` -/

/-- What a cut leaves: the core reset, on a state that host accesses alone separate from the one before. -/
def CutOf (s t : State) : Prop :=
  ∃ (n : Nat) (m : State), (∀ k j, m.reg k j = s.regAfterGaps k j n) ∧ m.tw = s.tw ∧ m.inputs = s.inputs ∧ t = m.coreReset

theorem cutOf_of_atGap {s t : State} (h : atGap s = .cut t) : CutOf s t := by
  obtain ⟨-, -, -, m, hc, -, hr, rfl⟩ := atGap_cut h
  exact ⟨1, m, hr, hc.tw, hc.inputs, rfl⟩

theorem CutOf.behind {s m m' t : State} (hm : atGap s = .run m) (hr : ∀ k j, m'.reg k j = m.reg k j)
    (hg : m'.gaps = m.gaps) (htw : m'.tw = m.tw) (hin : m'.inputs = m.inputs) (h : CutOf m' t) : CutOf s t := by
  obtain ⟨n, u, hu, hutw, huin, rfl⟩ := h
  obtain ⟨hc, -⟩ := atGap_run hm
  refine ⟨n + 1, u, fun k j => ?_, by rw [hutw, htw, hc.tw], by rw [huin, hin, hc.inputs], rfl⟩
  rw [hu, ← regAfterGaps_of_atGap hm]
  simp only [State.regAfterGaps, hr, hg]

/-- R170 inside the read loop: only the host has written a register. -/
theorem readLoop_cut {k : RegKind} {a n i : Nat} {s t : State} (h : readLoop k a n i s = .cut t) : CutOf s t := by
  induction n generalizing i s with
  | zero => cases h
  | succ n ih =>
    rcases Txn.andThen_cut h with h | ⟨m, hm, h⟩
    · exact cutOf_of_atGap h
    · exact (ih h).behind hm (fun k j => reg_congr rfl rfl k j) rfl rfl rfl

/-- R170 between R141 steps 6 and 7: only the host has written a register. -/
theorem conclude_cut {r : Result} {s t : State} (h : conclude r s = .cut t) : CutOf s t := by
  rcases Txn.andThen_cut h with h | ⟨m, -, h⟩
  · obtain ⟨n, m, hr, htw, hin, rfl⟩ := cutOf_of_atGap h
    exact ⟨n, m, fun k j => (hr k j).trans (congrArg (valueAfter k j _) (reg_congr rfl rfl k j)), htw, hin, rfl⟩
  · cases h

/-- R170 inside the response tail: only the host has written a register. -/
theorem respond_cut {r : Result} {s t : State} (h : respond r s = .cut t) : CutOf s t := by
  have key : ∀ u, CutOf s.applyAppend u → CutOf s u := by
    rintro u ⟨n, m, hr, htw, hin, rfl⟩
    exact ⟨n, m, fun k j => (hr k j).trans (congrArg (valueAfter k j _) (reg_congr rfl rfl k j)), htw, hin, rfl⟩
  rcases Txn.andThen_cut h with h | ⟨m, hm, h⟩
  · exact key _ (cutOf_of_atGap h)
  · rcases Txn.andThen_cut h with h | ⟨n, hn, h⟩
    · exact key _ ((cutOf_of_atGap h).behind hm (fun k j => reg_congr rfl rfl k j) rfl rfl rfl)
    · exact key _ (((conclude_cut h).behind hn (fun _ _ => rfl) rfl rfl rfl).behind hm (fun k j => reg_congr rfl rfl k j) rfl rfl
        rfl)

end Sys2Proof.Machine
end

