-- ==== Sys2Proof/Tests/Slice0.lean ====
section
/-! SUPPORT. Tests of the model, each with its source in the spec (V-…, S… and P… are rows of spec/95_test_vectors.md), and a
witness for the hypotheses of every statement. No expected value was taken from the model. -/

namespace Sys2Proof.Tests

open Sys2Proof.Machine

/-! ## States of the tests -/

/-- A configured core with the configuration and the registers of the dispatcher's vectors (95_test_vectors.md). -/
def base : State := { State.reset with
  configured := true, timeout := 9167, deviceAddr := 1, inputCount := 4, holdingCount := 10, maxReadCount := 125
  tx := List.replicate 255 0
  hr := RegFile.mk 0 [(0, 0x1234), (1, 0x5678), (3, 0x0000), (8, 0x0108), (9, 0x0109)]
  ir := RegFile.mk 0 [(0, 0xABCD)] }

/-- The core in `Accumulating` with `n` bytes taken, the last one at `last`. -/
def accumulating (n last : Nat) (s : State) : State :=
  { s with syncState := .accumulating, pendingLen := n, lastActivity := last }

/-- The core with a complete frame. -/
def ready (f : Frame) (s : State) : State := { s with rx := f, pendingLen := 8, syncState := .frameReady }

/-- The core with one event before it. -/
def offered (e : Event) (s : State) : State := { s with inputs := [e] }

/-- The core with host activity before it. -/
def withGaps (gs : List Gap) (s : State) : State := { s with gaps := gs }

/-- What a step leaves of the frame synchronizer. -/
def syncOf (o : Host.Outcome State Fault Refusal) : Option (SyncState × Nat × Nat × Frame) :=
  (nextOf o).map fun t => (t.syncState, t.pendingLen, t.lastActivity, t.rx)

/-- What a step puts out. -/
def outOf (o : Host.Outcome State Fault Refusal) : Option (List Output) := (nextOf o).map State.out

/-- A legal configuration at the upper end of every range. -/
def topCfg : Cfg where
  timeout := 2 ^ 32 - 1
  deviceAddr := 0xFF
  inputCount := 65536
  holdingCount := 65536
  maxReadCount := 127
  readHookEn := true
  writeHookEn := true
  hookCtx := 7
  inputArray := .held
  holdingArray := .fresh
  byteSource := true
  byteSink := true

/-- A legal configuration at the lower end of every range. -/
def bottomCfg : Cfg :=
  { topCfg with timeout := 1, deviceAddr := 0, inputCount := 1, holdingCount := 1, maxReadCount := 1 }

/-- The request of S1, the frame of V-SRV-1 and the one of V-SRV-4. -/
def s1Frame : Frame := Frame.mk 0x01 0x03 0x00 0x00 0x00 0x01 0x84 0x0A
def foreignFrame : Frame := Frame.mk 0x02 0x03 0x00 0x00 0x00 0x01 0x84 0x39
def corruptFrame : Frame := Frame.mk 0x01 0x03 0x00 0x00 0x00 0x01 0x84 0x0B

/-! ## Well-formedness: an ill-formed term for each check, refused -/

/-- R68: the three named function codes are no `ILLFN`; their neighbours are. -/
theorem test_wf_illfn :
    (Instr.illfn 1 0x03 0 0).wf = false ∧ (Instr.illfn 1 0x04 0 0).wf = false ∧ (Instr.illfn 1 0x06 0 0).wf = false ∧
    (Instr.illfn 1 0x02 0 0).wf = true ∧ (Instr.illfn 1 0x05 0 0).wf = true ∧ (Instr.illfn 1 0x07 0 0).wf = true := by
  decide

/-- R6: the legal configurations at both ends of the ranges. -/
theorem test_wf_cfg_legal : topCfg.wf 32 = true ∧ bottomCfg.wf 32 = true := by decide

/-- R6, R176: one ill-formed configuration for each check. -/
theorem test_wf_cfg_refused :
    (Cfg.wf 32 { topCfg with inputCount := 0 }) = false ∧ (Cfg.wf 32 { topCfg with inputCount := 65537 }) = false ∧
    (Cfg.wf 32 { topCfg with holdingCount := 0 }) = false ∧ (Cfg.wf 32 { topCfg with holdingCount := 65537 }) = false ∧
    (Cfg.wf 32 { topCfg with inputArray := .missing }) = false ∧
    (Cfg.wf 32 { topCfg with holdingArray := .missing }) = false ∧
    (Cfg.wf 32 { topCfg with maxReadCount := 0 }) = false ∧ (Cfg.wf 32 { topCfg with maxReadCount := 128 }) = false ∧
    (Cfg.wf 32 { topCfg with timeout := 0 }) = false ∧ (Cfg.wf 32 { topCfg with timeout := 2 ^ 32 }) = false ∧
    (Cfg.wf 32 { topCfg with byteSource := false }) = false ∧ (Cfg.wf 32 { topCfg with byteSink := false }) = false := by
  decide

/-! ## Decoding: words written out from the layout of R60 -/

/-- V-DSP-2: address 01, code 03, start 00 08, count 00 02. -/
theorem test_decode_rhr : decodeTableWord 64 0x01030008000245C9 = some (.rhr 0x01 0x0008 0x0002) := by decide

/-- P3 frame 2: address 11, code 04, start 00 01, count 00 03. -/
theorem test_decode_rir : decodeTableWord 64 0x110400010003E35B = some (.rir 0x11 0x0001 0x0003) := by decide

/-- V-DSP-9: address 01, code 06, register 00 03, value BE EF. -/
theorem test_decode_wsr : decodeTableWord 64 0x01060003BEEF49E6 = some (.wsr 0x01 0x0003 0xBEEF) := by decide

/-- V-DSP-15: address 01, code 10, the four field bytes FF. -/
theorem test_decode_illfn : decodeTableWord 64 0x0110FFFFFFFFC19D = some (.illfn 0x01 0x10 0xFFFF 0xFFFF) := by decide

/-- The other direction, CRC included (S1, V-DSP-8, V-DSP-9, V-DSP-15). -/
theorem test_encode :
    (encode (.rhr 0x01 0 1)).toTableWord = 0x010300000001840A ∧ (encode (.rir 0x01 0 1)).toTableWord = 0x01040000000131CA ∧
    (encode (.wsr 0x01 3 0xBEEF)).toTableWord = 0x01060003BEEF49E6 ∧
    (encode (.illfn 0x01 0x10 0xFFFF 0xFFFF)).toTableWord = 0x0110FFFFFFFFC19D := by
  decide +kernel

/-- R71: seven bytes are no candidate frame; what stands behind the eighth byte is left over. -/
theorem test_decode_bytes :
    decodeBytes [1, 3, 0, 0, 0, 1, 0x84] = .rejectTooShort 7 ∧
    decodeBytes [1, 3, 0, 0, 0, 1, 0x84, 0x0A, 0x55] = .request (.rhr 1 0 1) [0x55] := by
  decide

/-! ## The CRC engine and the byte codec -/

/-- V-CRC-1 to V-CRC-7a. -/
theorem test_crc_vectors :
    crc16 [] = 0xFFFF ∧ crc16 [0x00] = 0x40BF ∧ crc16 [0xFF] = 0x00FF ∧ crc16 [0x01] = 0x807E ∧
    crc16 [0x01, 0x03] = 0x2140 ∧ crc16 [0, 0, 0, 0, 0, 0] = 0x1B00 ∧
    crc16 [0xFF, 0xFF, 0xFF, 0xFF, 0xFF, 0xFF] = 0x9401 ∧
    crc16 [0x31, 0x32, 0x33, 0x34, 0x35, 0x36, 0x37, 0x38, 0x39] = 0x4B37 := by
  decide +kernel

/-- V-CRC-13, V-CRC-9, V-CRC-11, V-CRC-14. -/
theorem test_crc_apply :
    (crcApply [0x01, 0x85, 0x01, 0, 0] 3 .append).buffer = [0x01, 0x85, 0x01, 0x83, 0x50] ∧
    crcApply [0x01, 0x03, 0, 0, 0, 0x01, 0x84, 0x0B] 6 .verify =
      CrcApplied.mk [0x01, 0x03, 0, 0, 0, 0x01, 0x84, 0x0B] 0x0A84 (some false) ∧
    (crcApply [0x02, 0x43, 0x01, 0, 0, 0x01, 0x84, 0x0A] 6 .verify).isMatch = some true ∧
    (crcApply [0x01, 0x03, 0, 0, 0, 0x01, 0x0A, 0x84] 6 .verify).isMatch = some false := by
  decide +kernel

/-- V-COD-1 to V-COD-5, V-COD-9. -/
theorem test_codec :
    be16 0x9A 0x01 = 0x9A01 ∧ le16 0x9A 0x01 = 0x019A ∧ beBytes 0x1234 = [0x12, 0x34] ∧ leBytes 0x1234 = [0x34, 0x12] ∧
    swap16 0x019A = 0x9A01 ∧ swap16 0x9A01 = 0x019A ∧ be16 0x00 0x80 = 0x0080 := by
  decide

/-! ## The register bank -/

/-- V-BNK-1 to V-BNK-4 and V-BNK-7. -/
theorem test_bank_ranges :
    readRange base .holding 8 2 = some [0x0108, 0x0109] ∧ readRange base .holding 9 2 = none ∧
    readRange base .holding 10 0 = some [] ∧ readRange base .holding 11 0 = none ∧
    readRange base .holding 0xFFFF 2 = none := by
  decide

/-- V-BNK-10, V-BNK-11: a bulk load that fits and one whose last register does not exist. -/
theorem test_bank_bulk_load :
    (bulkLoad .input 2 [7, 8] base).ir.cells = [(0, 0xABCD), (2, 7), (3, 8)] ∧ (bulkLoad .input 3 [7, 8] base).ir = base.ir := by
  decide

/-! ## The four requests (the bodies' byte order, the checks, the results) -/

/-- V-DSP-1 with `READ_HOOK_EN = 1`: the event carries 7 bytes and no CRC, before the frame. -/
theorem test_rhr_served :
    outOf (exec (.rhr 1 0 2) { base with readHookEn := true }) = some [.readEvent [0x01, 0x03, 0x04, 0x34, 0x12, 0x78, 0x56] 0,
      .txFrame [0x01, 0x03, 0x04, 0x34, 0x12, 0x78, 0x56, 0xF6, 0x38], .result (Result.mk .noAction 0)] := by
  decide +kernel

/-- V-DSP-5 (no wrap of the sum), V-DSP-7 (no register). -/
theorem test_rhr_limits :
    outOf (exec (.rhr 1 0xFFFF 2) base) =
      some [.txFrame [0x01, 0x83, 0x02, 0xC0, 0xF1], .result (Result.mk .noAction 0)] ∧
    outOf (exec (.rhr 1 0 0) base) = some [.txFrame [0x01, 0x03, 0x00, 0x20, 0xF0], .result (Result.mk .noAction 0)] := by
  decide +kernel

/-- V-DSP-8. -/
theorem test_rir_served :
    outOf (exec (.rir 1 0 1) base) =
      some [.txFrame [0x01, 0x04, 0x02, 0xCD, 0xAB, 0xAC, 0x1F], .result (Result.mk .noAction 0)] := by
  decide +kernel

/-- V-DSP-8a: five input registers are too many although five holding registers are not. -/
theorem test_rir_own_size :
    outOf (exec (.rir 1 0 5) base) = some [.txFrame [0x01, 0x84, 0x02, 0xC2, 0xC1], .result (Result.mk .noAction 0)] := by
  decide +kernel

/-- V-DSP-9 with `WRITE_HOOK_EN = 1`: event, echo, result, and the one register written. -/
theorem test_wsr_served :
    (nextOf (exec (.wsr 1 3 0xBEEF) { base with writeHookEn := true })).map (fun t => (t.out, t.hr.cells)) = some
      ([.preWriteEvent [0x01, 0x06, 0x00, 0x03, 0xBE, 0xEF, 0x49, 0xE6] 0,
        .txFrame [0x01, 0x06, 0x00, 0x03, 0xBE, 0xEF, 0x49, 0xE6], .result (Result.mk .written 0xBEEF)],
       [(0, 0x1234), (1, 0x5678), (3, 0xBEEF), (8, 0x0108), (9, 0x0109)]) := by
  decide +kernel

/-- V-DSP-11: one past the end; no event although the observer is enabled, and nothing written. -/
theorem test_wsr_refused :
    (nextOf (exec (.wsr 1 10 1) { base with writeHookEn := true })).map (fun t => (t.out, t.hr)) = some
      ([.txFrame [0x01, 0x86, 0x02, 0xC3, 0xA1], .result (Result.mk .noAction 0)], base.hr) := by
  decide +kernel

/-- S3, V-DSP-12 (a code with bit 7 set). -/
theorem test_illfn :
    outOf (exec (.illfn 1 0x05 0 0xFF00) base) =
      some [.txFrame [0x01, 0x85, 0x01, 0x83, 0x50], .result (Result.mk .noAction 0)] ∧
    outOf (exec (.illfn 1 0x83 0 1) base) =
      some [.txFrame [0x01, 0x83, 0x01, 0x80, 0xF0], .result (Result.mk .noAction 0)] := by
  decide +kernel

/-- P4: a torn read of two registers, the host writing both between the two reads. -/
theorem test_torn_read :
    outOf (exec (.rhr 1 0 2) (withGaps [.still, Gap.mk [.write .holding 0 2, .write .holding 1 2] false]
      { base with hr := RegFile.mk 0 [(0, 1), (1, 1)], holdingCount := 2 })) =
      some [.txFrame [0x01, 0x03, 0x04, 0x01, 0x00, 0x02, 0x00, 0xFA, 0xAF], .result (Result.mk .noAction 0)] := by
  decide +kernel

/-- R66: the size of `TX` at both ends of `MAX_READ_COUNT` and at its default; R65: with the smallest buffer the whole write response
of S2 leaves (log entry 14). -/
theorem test_tx_size :
    txBufLen 1 = 7 ∧ txBufLen 125 = 255 ∧ txBufLen 127 = 259 ∧
    outOf (exec (.wsr 1 0 0x9A01) { base with maxReadCount := 1, tx := List.replicate 7 0 }) =
      some [.txFrame [0x01, 0x06, 0x00, 0x00, 0x9A, 0x01, 0x22, 0xAA], .result (Result.mk .written 0x9A01)] := by
  decide +kernel

/-- R32 with R141: a sample before the first action of `Process`, before the transmission, behind it, and between steps 6 and 7,
where `SYNC_STATE` and `PENDING_LEN` are new and `RESULT` is still the old one. -/
theorem test_samples_inside :
    outOf (step (withGaps [.sampling, .sampling, .sampling, .sampling] (ready (encode (.illfn 1 5 0 0)) base))) =
      some [.hostStatus (Status.mk .frameReady 8 (Result.mk .idle 0) false true),
        .hostStatus (Status.mk .frameReady 8 (Result.mk .idle 0) false true), .txFrame [0x01, 0x85, 0x01, 0x83, 0x50],
        .hostStatus (Status.mk .frameReady 8 (Result.mk .idle 0) false true),
        .hostStatus (Status.mk .idle 0 (Result.mk .idle 0) false true), .result (Result.mk .noAction 0)] ∧
    outOf (step (withGaps [.still, .sampling] { ready foreignFrame base with result := Result.mk .written 7 })) =
      some [.hostStatus (Status.mk .idle 0 (Result.mk .written 7) false true), .result (Result.mk .idle 0)] := by
  decide +kernel

/-- R32: a sample of a core in error, and of one in the middle of a frame. -/
theorem test_sample_event :
    outOf (step (offered .hostSample { State.reset with cfgError := true })) =
      some [.hostStatus (Status.mk .idle 0 (Result.mk .idle 0) true false)] ∧
    outOf (step (offered .hostSample (accumulating 5 9000 base))) =
      some [.hostStatus (Status.mk .accumulating 5 (Result.mk .idle 0) false true)] := by
  decide

/-! ## The frame synchronizer -/

/-- V-SYN-1, V-SYN-6: the first byte and the eighth; the eighth reports nothing. -/
theorem test_sync_first_last :
    syncOf (step (offered (.rxByte 0x01 1000) base)) = some (.accumulating, 1, 1000, Frame.mk 1 0 0 0 0 0 0 0) ∧
    syncOf (step (offered (.rxByte 0x0A 5100) (accumulating 7 5000 base))) =
      some (.frameReady, 8, 5100, Frame.mk 0 0 0 0 0 0 0 0x0A) ∧
    outOf (step (offered (.rxByte 0x0A 5100) (accumulating 7 5000 base))) = some [] := by
  decide

/-- V-SYN-2 to V-SYN-5: one tick below the timeout and at it, for a poll and for a byte. -/
theorem test_sync_timeout :
    syncOf (step (offered (.poll 12458) (accumulating 3 3292 base))) = some (.accumulating, 3, 3292, base.rx) ∧
    syncOf (step (offered (.poll 12459) (accumulating 3 3292 base))) = some (.idle, 0, 12459, base.rx) ∧
    syncOf (step (offered (.rxByte 0xAA 12458) (accumulating 3 3292 base))) =
      some (.accumulating, 4, 12458, Frame.mk 0 0 0 0xAA 0 0 0 0) ∧
    syncOf (step (offered (.rxByte 0xAA 12459) (accumulating 3 3292 base))) =
      some (.accumulating, 1, 12459, Frame.mk 0xAA 0 0 0 0 0 0 0) := by
  decide

/-- V-SYN-8 to V-SYN-10: the counter wraps, and a time that seems to run backwards. -/
theorem test_sync_wrap :
    syncOf (step (offered (.poll 0x10) (accumulating 2 0xFFFFFF00 base))) = some (.accumulating, 2, 0xFFFFFF00, base.rx) ∧
    syncOf (step (offered (.poll 0x22CF) (accumulating 2 0xFFFFFF00 base))) = some (.idle, 0, 0x22CF, base.rx) ∧
    syncOf (step (offered (.poll 99) (accumulating 2 100 base))) = some (.idle, 0, 99, base.rx) := by
  decide

/-! ## The server loop, reset and configuration -/

/-- V-SRV-7: S1's frame served, in one step. -/
theorem test_process_served :
    (nextOf (step (ready s1Frame base))).map (fun t => (t.out, t.crcMatch, t.syncState, t.pendingLen, t.txLen)) = some
      ([.txFrame [0x01, 0x03, 0x02, 0x34, 0x12, 0x2E, 0x89], .result (Result.mk .noAction 0)], true, .idle, 0, 7) := by
  decide +kernel

/-- V-SRV-1 and V-SRV-4: the two drops. -/
theorem test_process_dropped :
    (nextOf (step (ready foreignFrame base))).map (fun t => (t.out, t.crcAcc, t.crcMatch)) =
      some ([.result (Result.mk .idle 0)], 0xFFFF, false) ∧
    (nextOf (step (ready corruptFrame base))).map (fun t => (t.out, t.crcAcc, t.crcMatch)) =
      some ([.result (Result.mk .idle 0)], 0x0A84, false) := by
  decide +kernel

/-- V-RST-2, V-RST-5: an ill-formed configuration stops the receiver until `Reset`; a second `Configure` is not taken. -/
theorem test_configure :
    (nextOf (step (offered (.configure { bottomCfg with holdingCount := 0 }) State.reset))).map
      (fun t => (t.cfgError, t.configured)) = some (true, false) ∧
    step (offered (.rxByte 1 0) { State.reset with cfgError := true }) = .refused .rxByteNotEnabled ∧
    step (offered (.configure bottomCfg) base) = .refused .configureNotEnabled :=
  ⟨by decide, rfl, rfl⟩

/-- V-RST-6: `Reset` in the middle of a frame. -/
theorem test_reset_mid_frame :
    (nextOf (step (offered .reset (accumulating 5 9000 base)))).map
      (fun t => (t.syncState, t.pendingLen, t.lastActivity, t.configured, t.hr, t.ir)) =
      some (.idle, 0, 0, false, base.hr, base.ir) := by
  decide

/-! ## Witnesses: states and operands that meet the hypotheses of the statements, at the boundaries -/

/-- `ResetEventRestoresCoreState`: as an event, and at the first point of `Process` behind a host write and read of the last register
and a sample. -/
theorem witness_reset_event :
    (offered .reset (accumulating 5 9000 base)).inputs = [.reset] ∧
    (offered .reset (accumulating 5 9000 base)).processEnabled = false ∧
    let as : List HostAccess := [.write .holding 9 2, .read .holding 9, .sample]
    let s := withGaps [Gap.mk as true, .still] (ready s1Frame base)
    s.configured = true ∧ s.syncState = .frameReady ∧ s.gaps = [Gap.mk as true, .still] ∧
      (∀ a ∈ as, s.admits a = true) ∧ s.admits (.read .holding 10) = false ∧
      answers s as = [.hostValue .holding 9 2, .hostStatus (Status.mk .frameReady 8 (Result.mk .idle 0) false true)] := by
  decide

/-- `ResetInsideAWriteKeepsDoneActions`: the last register, and a `Reset` at each of the five points. -/
theorem witness_reset_inside_write :
    (9 : Word).toNat + 1 ≤ base.holdingCount ∧
    (withGaps [.resetting] base).gaps = [.resetting] ∧
    (withGaps [.still, .resetting] base).gaps = [.still, .resetting] ∧
    (withGaps [.still, .still, .resetting] base).gaps = [.still, .still, .resetting] ∧
    (withGaps [.still, .still, .still, .resetting] base).gaps = [.still, .still, .still, .resetting] ∧
    (withGaps [.still, .still, .still, .still, .resetting] base).gaps = [.still, .still, .still, .still, .resetting] := by decide

/-- `ResetInsideAReadKeepsDoneActions`: two registers of each kind up to the last one, and the points 0, 2, 3, 4 and 5. -/
theorem witness_reset_inside_read :
    (8 : Word).toNat + (2 : Word).toNat ≤ base.size .holding ∧ (2 : Word).toNat + (2 : Word).toNat ≤ base.size .input ∧
    (2 : Word).toNat ≤ base.maxReadCount ∧ 5 ≤ (2 : Word).toNat + 3 ∧
    (withGaps [.resetting] base).gaps = List.replicate 0 .still ++ [.resetting] ∧
    (withGaps [.still, .still, .resetting] base).gaps = List.replicate 2 .still ++ [.resetting] ∧
    (withGaps [.still, .still, .still, .resetting] base).gaps = List.replicate 3 .still ++ [.resetting] ∧
    (withGaps [.still, .still, .still, .still, .resetting] base).gaps = List.replicate 4 .still ++ [.resetting] ∧
    (withGaps [.still, .still, .still, .still, .still, .resetting] base).gaps = List.replicate 5 .still ++ [.resetting] := by
  decide

/-- `ResetInsideARefusalKeepsDoneActions`: each form one beyond its limit, and none at it (R157). -/
theorem witness_refusals :
    base.refusalCode (.rhr 1 9 2) = some 0x02 ∧ base.refusalCode (.rhr 1 8 2) = none ∧
    base.refusalCode (.rir 1 0 5) = some 0x02 ∧ base.refusalCode (.rir 1 0 4) = none ∧
    base.refusalCode (.wsr 1 10 1) = some 0x02 ∧ base.refusalCode (.wsr 1 9 1) = none ∧
    base.refusalCode (.illfn 1 5 0 0) = some 0x01 := by decide

/-- `WellFormedConfigureLoads` (both arrays held, both ends of the ranges) and `IllFormedConfigureLoadsNothing`. -/
theorem witness_configure :
    State.reset.configured = false ∧ State.reset.cfgError = false ∧ topCfg.wf State.reset.tw = true ∧
    bottomCfg.wf State.reset.tw = true ∧ topCfg.inputArray = .held ∧
    (Cfg.wf State.reset.tw { topCfg with holdingArray := .held }) = true ∧
    (Cfg.wf State.reset.tw { topCfg with maxReadCount := 128 }) = false ∧
    (offered (.configure topCfg) State.reset).inputs = [.configure topCfg] := by decide

/-- `EventsNotEnabledAreRefused`: without configuration, in error, and configured. -/
theorem witness_not_enabled :
    (offered (.rxByte 1 0) State.reset).configured = false ∧ (offered (.poll 0) State.reset).configured = false ∧
    base.configured = true ∧ (offered (.configure topCfg) base).processEnabled = false ∧
    ({ State.reset with cfgError := true } : State).processEnabled = false := by decide

/-- `ConfigurationConstantWhileRunning`, `EventsWaitWhileAFrameIsReady`, `ProcessEndsInIdle` and
`AFrameChangesAtMostOneHoldingRegister`: a step of a configured core, with a frame and with an event. -/
theorem witness_running :
    base.configured = true ∧ base.noResets ∧ (ready foreignFrame base).syncState = .frameReady ∧ base.quiet ∧
    (∃ t, step (ready foreignFrame base) = .next t) ∧ (∃ t, step (offered (.poll 0) base) = .next t) ∧
    (∀ es, (offered (.poll 0) base).inputs ≠ .reset :: es) :=
  ⟨rfl, by decide, rfl, rfl, ⟨_, rfl⟩, ⟨_, rfl⟩, by simp [offered]⟩

/-- `ElapsedIsTheTrueTime` at the longest time that a counter can show. -/
theorem witness_elapsed : 2 ^ 32 - 1 < 2 ^ 32 ∧ elapsed 32 99 100 = 2 ^ 32 - 1 := by decide

/-- `FirstByteStartsAFrame`, `PollInIdleHasNoSideEffect`. -/
theorem witness_idle :
    base.configured = true ∧ base.syncState = .idle ∧ 2 ^ 32 - 1 < 2 ^ base.tw ∧
    (offered (.rxByte 1 5) base).inputs = [.rxByte 1 5] ∧ (offered (.poll 5) base).inputs = [.poll 5] := by decide

/-- `TimelyByteIsAppended`, `LateByteStartsANewFrame`, `PollFiresTheTimeout`: the seventh and the eighth byte, one tick below the
timeout and at it. -/
theorem witness_accumulating :
    (accumulating 7 3292 base).syncState = .accumulating ∧ (accumulating 7 3292 base).pendingLen = 7 ∧
    (accumulating 6 3292 base).pendingLen < 7 ∧ (accumulating 7 3292 base).configured = true ∧
    elapsed 32 12458 3292 < base.timeout ∧ base.timeout ≤ elapsed 32 12459 3292 ∧ 12459 < 2 ^ base.tw := by decide

/-- `StepKeepsSynchronizerRelation`, `StepKeepsTheInvariant`: a state in the middle of a frame. -/
theorem witness_invariant : (offered (.poll 12459) (accumulating 3 3292 base)).Inv where
  sync := ⟨by decide, by decide, by decide⟩
  lastActivity := by decide
  cfg := fun _ => ⟨by decide, by decide, by decide, by decide, by decide⟩
  unconfigured := by decide
  txSize := by decide +kernel
  txLen := Nat.zero_le _
  result := by decide
  hr := by decide
  ir := by decide

/-- The state of `witness_invariant` answers a next state. -/
theorem witness_invariant_step : ∃ t, step (offered (.poll 12459) (accumulating 3 3292 base)) = .next t := ⟨_, rfl⟩

/-- `TimelyBytesAssembleOneFrame`: V-SYN-12 up to its last byte, with a poll between, over the wrap of the counter. -/
theorem witness_timely :
    let es := [.rxByte 0x03 0xFFFFF47A, .rxByte 0x00 0xFFFFF8F4, .poll 0xFFFFF900, .rxByte 0x00 0xFFFFFD6E,
      .rxByte 0x00 0x1E8, .rxByte 0x00 0x662, .rxByte 0x01 0xADC]
    base.configured = true ∧ base.syncState = .idle ∧ (arrivals es).length = 6 ∧
      Timely base.tw base.timeout (0xFFFFF000 % 2 ^ base.tw) (es ++ [.rxByte 0x84 0xF56]) := by
  simp only [Timely, arrivals, List.cons_append, List.nil_append]
  decide

/-- `DecodeOfEncodeIsTheRequest`, `VerifiedFrameIsItsRequest`. -/
theorem witness_encoding :
    (Instr.illfn 0xFF 0xFF 0xFFFF 0xFFFF).wf = true ∧ (Instr.rhr 0 0 0).wf = true ∧
    s1Frame.crcField = crc16 s1Frame.body := by decide +kernel

/-- `FunctionCodeMapIsComplete`: a number for each clause. -/
theorem witness_function_codes :
    0x010300000001840A &&& 0x00FF000000000000 = 0x0003000000000000 ∧
    0x01040000000131CA &&& 0x00FF000000000000 = 0x0004000000000000 ∧
    0xFF06FFFFFFFFFFFF &&& 0x00FF000000000000 = 0x0006000000000000 ∧
    0x0005000000000000 &&& 0x00FF000000000000 = 0x0005000000000000 ∧ 0xFF06FFFFFFFFFFFF < 2 ^ 64 := by decide

/-- `AppendWritesTheCrcBehindTheBody`, `AppendedCrcVerifies`, `VerifyComparesAndChangesNoByte`, `SingleBitFlipNeverVerifies`: a
buffer with exactly the room for the CRC, and the first and the last bit of a span. -/
theorem witness_crc :
    ({ base with tx := [1, 0x85, 1, 0, 0], txLen := 3 } : State).txLen + 2 ≤ [1, 0x85, 1, 0, (0 : Byte)].length ∧
    [1, 0x85, 1, 0x83, (0x50 : Byte)][3]? = some 0x83 ∧ [1, 0x85, 1, 0x83, (0x50 : Byte)][4]? = some 0x50 ∧
    0 < 8 * ([1, 0x85, (1 : Byte)].length + 2) ∧ 39 < 8 * ([1, 0x85, (1 : Byte)].length + 2) := by decide

/-- `ReceiveBufferWritesOneByte`: the first and the last byte. -/
theorem witness_rx_index : 0 < 8 ∧ 7 < 8 ∧ ((Frame.mk 0 0 0 0 0 0 0 0).set 7 0x0A).b7 = 0x0A := by decide

/-- `WriteSingleWritesOneRegister`, `ReadRangeIsAllOrNothing`, `WriteSingleRegister`, `ReadHoldingRegisters`,
`ReadInputRegisters`, `ResponseDependsOnNamedRegistersOnly`, `WrittenValueReadsBackSwapped`, `UnknownFunctionIsRefused`,
`ObserverSeesTheOldValue`: the last register, and one beyond it. -/
theorem witness_ranges :
    base.quiet ∧ (9 : Word).toNat + 1 ≤ base.holdingCount ∧ base.holdingCount < (10 : Word).toNat + 1 ∧
    (8 : Word).toNat + (2 : Word).toNat ≤ base.size .holding ∧ base.size .holding < (9 : Word).toNat + (2 : Word).toNat ∧
    (0 : Word).toNat + (4 : Word).toNat ≤ base.inputCount ∧ ¬(0 : Word).toNat + (5 : Word).toNat ≤ base.inputCount ∧
    (125 : Word).toNat ≤ base.maxReadCount ∧ ¬(126 : Word).toNat ≤ base.maxReadCount ∧ 1 ≤ base.maxReadCount ∧
    (9 : Word).toNat < base.hostSize .holding := by decide

/-- `BulkLoadIsWholeOrNothing`, `BulkStoreHarvestsARange`, `HostAccessReachesOneRegister`: V-BNK-10 and V-BNK-11, and the last
register and one beyond it; and for the last two of them and `BulkEventsBeforeConfigureAreRefused` a core without
configuration. -/
theorem witness_host :
    base.configured = true ∧ (offered (.bulkLoad .input 2 [7, 8]) base).processEnabled = false ∧
    2 + [7, (8 : Word)].length ≤ base.size .input ∧ base.size .input < 3 + [7, (8 : Word)].length ∧
    0 + 10 ≤ base.size .holding ∧ base.size .holding < 0 + 11 ∧ 9 < base.size .holding ∧ base.size .holding ≤ 10 ∧
    State.reset.configured = false ∧ State.reset.processEnabled = false ∧ 65535 < State.reset.hostSize .input ∧
    ¬65536 < State.reset.hostSize .input := by
  decide

/-- `EveryRequestCompletes`, `RequestsKeepControlState`, `RequestsKeepOtherRegisters`, `EachRegisterIsReadAtItsOwnPoint`: host
accesses at the last registers, no `Reset`, and a request that completes. -/
theorem witness_host_active :
    let s := withGaps [Gap.mk [.write .holding 9 2, .read .input 3] false, .still] base
    s.gapsInRange ∧ s.noResets ∧ ¬s.hostWrites .holding 8 ∧ (1 : Word).toNat ≤ s.maxReadCount ∧
      (9 : Word).toNat + (1 : Word).toNat ≤ s.holdingCount ∧ (3 : Word).toNat + (1 : Word).toNat ≤ s.inputCount ∧
      ∃ t, exec (.illfn 1 5 0 0) s = .next t := by
  refine ⟨by decide, by decide, ?_, by decide, by decide, by decide, ⟨_, rfl⟩⟩
  simp [State.hostWrites, withGaps]

/-- `ObserverSeesTheOldValue`. -/
theorem witness_observer :
    let s := withGaps [.still, Gap.mk [.read .holding 3, .write .holding 3 9] false] { base with writeHookEn := true }
    s.writeHookEn = true ∧ (3 : Word).toNat + 1 ≤ s.holdingCount ∧ (3 : Word).toNat < s.hostSize .holding ∧
      s.gaps = [Gap.mk [] false, Gap.mk [.read .holding (3 : Word).toNat, .write .holding (3 : Word).toNat 9] false] := by
  decide

/-- `StepRunsTheDecodedRequest`, `ForeignFrameIsDropped`, `CorruptFrameIsDropped`, `PlacedRequestRunsNext`. -/
theorem witness_frames :
    (ready s1Frame base).rx.b0 = base.deviceAddr ∧ s1Frame.crcField = crc16 s1Frame.body ∧
    (ready foreignFrame base).rx.b0 ≠ base.deviceAddr ∧ corruptFrame.b0 = base.deviceAddr ∧
    corruptFrame.crcField ≠ crc16 corruptFrame.body ∧ (ready s1Frame base).syncState = .frameReady ∧
    decodeTableWord 64 0x010300000001840A = some (.rhr 1 0 1) := by decide +kernel

/-- `StepRunsTheDecodedRequest`: the point before the first action. -/
theorem witness_first_point : atGap (ready s1Frame base) = .run (ready s1Frame base) := rfl

/-- `AFrameChangesAtMostOneHoldingRegister`: V-DSP-9's frame commits, V-DSP-11's names no register of the array. -/
theorem witness_commits :
    let f := Frame.mk 0x01 0x06 0x00 0x03 0xBE 0xEF 0x49 0xE6
    let g := Frame.mk 0x01 0x06 0x00 0x0A 0x00 0x01 0x68 0x08
    f.b0 = base.deviceAddr ∧ f.crcField = crc16 f.body ∧ (decode f).functionCode = 0x06 ∧
    (decode f).fieldA.toNat + 1 ≤ base.holdingCount ∧ (ready f base).quiet ∧ (nextOf (step (ready f base))).isSome = true ∧
    g.crcField = crc16 g.body ∧ ¬(decode g).fieldA.toNat + 1 ≤ base.holdingCount := by decide +kernel

/-- `SamplesShowTheStatusRegisters`, its event: without configuration and in the middle of a frame. -/
theorem witness_sample :
    (offered .hostSample State.reset).processEnabled = false ∧
    (offered .hostSample (accumulating 5 9000 base)).processEnabled = false ∧
    (offered .hostSample base).inputs = [.hostSample] := by decide

/-- `SamplesShowTheStatusRegisters`, its requests: every point of each form, served and refused. -/
theorem witness_points :
    base.points (.rhr 1 8 2) = 6 ∧ base.points (.rhr 1 9 2) = 3 ∧ base.points (.rir 1 0 4) = 8 ∧ base.points (.rir 1 0 5) = 3 ∧
    base.points (.wsr 1 9 1) = 5 ∧ base.points (.wsr 1 10 1) = 3 ∧ base.points (.illfn 1 5 0 0) = 3 ∧
    (withGaps (List.replicate 5 .sampling) base).gaps =
      List.replicate ((withGaps (List.replicate 5 .sampling) base).points (.wsr 1 9 1)) .sampling := by decide

/-- `SamplesShowTheStatusRegisters`, its last two clauses, and `ResetEventRestoresCoreState`, its last clause: both reasons for a drop. -/
theorem witness_drops :
    let s := withGaps [.sampling, .sampling] (ready foreignFrame base)
    let t := withGaps [.still, .resetting, .still] (ready corruptFrame base)
    s.configured = true ∧ s.syncState = .frameReady ∧ s.gaps = [.sampling, .sampling] ∧ s.rx.b0 ≠ s.deviceAddr ∧
    s.onlySampled ∧ t.configured = true ∧ t.syncState = .frameReady ∧ t.gaps = .still :: .resetting :: [.still] ∧
    t.rx.b0 = t.deviceAddr ∧ t.rx.crcField ≠ crc16 t.rx.body := by decide +kernel

/-- `QuiescentCoreDoesNothing`. -/
theorem witness_quiescent : base.syncState ≠ .frameReady ∧ base.inputs = [] := by decide

end Sys2Proof.Tests
end

section
/-! PROOFS. The byte codec (spec/41_byte_codec.md R90 to R92): the two bytes of a word as numbers, what each conversion is as a
number, and how taking bytes and putting them together undo each other. Every conversion is stated through `be16`, the
bytes in the other order. -/

namespace Sys2Proof

/-! ## The two bytes of a word (R8) -/

theorem lo8_eq_ofNat (v : Word) : lo8 v = BitVec.ofNat 8 v.toNat := (BitVec.ofNat_toNat 8 v).symm

theorem hi8_eq_ofNat (v : Word) : hi8 v = BitVec.ofNat 8 (v.toNat / 256) := by
  apply BitVec.eq_of_toNat_eq
  simp [hi8, Nat.shiftRight_eq_div_pow]

@[simp] theorem toNat_lo8 (v : Word) : (lo8 v).toNat = v.toNat % 256 := by
  rw [lo8_eq_ofNat, BitVec.toNat_ofNat]

@[simp] theorem toNat_hi8 (v : Word) : (hi8 v).toNat = v.toNat / 256 := by
  have hv := v.isLt
  rw [hi8_eq_ofNat, BitVec.toNat_ofNat]
  omega

/-! ## The conversions as numbers (R90, R91) -/

@[simp] theorem toNat_be16 (x y : Byte) : (be16 x y).toNat = x.toNat * 256 + y.toNat := by
  rw [be16, BitVec.toNat_append, ← Nat.shiftLeft_add_eq_or_of_lt y.isLt, Nat.shiftLeft_eq]

theorem le16_eq_be16 (x y : Byte) : le16 x y = be16 y x := rfl

@[simp] theorem toNat_le16 (x y : Byte) : (le16 x y).toNat = y.toNat * 256 + x.toNat := by
  rw [le16_eq_be16, toNat_be16]

theorem swap16_eq_be16 (v : Word) : swap16 v = be16 (lo8 v) (hi8 v) := rfl

/-! ## Their inverses, and the swap (R92) -/

@[simp] theorem be16_hi8_lo8 (v : Word) : be16 (hi8 v) (lo8 v) = v :=
  Laws.EncodedFrameVerifies.le16_lo8_hi8 v

@[simp] theorem hi8_be16 (x y : Byte) : hi8 (be16 x y) = x := by
  apply BitVec.eq_of_toNat_eq
  have hy := y.isLt
  rw [toNat_hi8, toNat_be16]
  omega

@[simp] theorem lo8_be16 (x y : Byte) : lo8 (be16 x y) = y := by
  apply BitVec.eq_of_toNat_eq
  have hy := y.isLt
  rw [toNat_lo8, toNat_be16]
  omega

theorem swap16_be16 (x y : Byte) : swap16 (be16 x y) = be16 y x := by
  rw [swap16_eq_be16, lo8_be16, hi8_be16]

theorem swap16_swap16 (v : Word) : swap16 (swap16 v) = v := by
  rw [swap16_eq_be16 v, swap16_be16, be16_hi8_lo8]

theorem be16_eq_swap16_le16 (x y : Byte) : be16 x y = swap16 (le16 x y) := by
  rw [le16_eq_be16, swap16_be16]

theorem toNat_swap16 (v : Word) : (swap16 v).toNat = v.toNat % 256 * 256 + v.toNat / 256 := by
  rw [swap16_eq_be16, toNat_be16, toNat_lo8, toNat_hi8]

/-- Settles O26: both decodes and the swap are `be16` of two bytes, whose number `toNat_be16` gives and whose bytes
`hi8_be16` and `lo8_be16` take back. -/
theorem byteCodecConversions : Obligations.ByteCodecConversions := by
  unfold Obligations.ByteCodecConversions
  refine ⟨toNat_be16, toNat_le16, fun v => ?beBytes, fun v => ?leBytes, be16_hi8_lo8,
    Laws.EncodedFrameVerifies.le16_lo8_hi8, swap16_swap16, be16_eq_swap16_le16, toNat_swap16⟩
  case beBytes => rw [beBytes, hi8_eq_ofNat, lo8_eq_ofNat]
  case leBytes => rw [leBytes, hi8_eq_ofNat, lo8_eq_ofNat]

end Sys2Proof
end

section
/-! PROOFS. The register bank's single write (spec/42_register_bank.md R97): the two answers of `writeSingle`, told apart by the
bounds check of R98, and the one field that a holding write replaces. -/

namespace Sys2Proof.Machine

/-- A holding write replaces the holding array and no other field. -/
theorem setReg_holding_eq (s : State) (i : Nat) (v : Word) :
    s.setReg .holding i v = { s with hr := (s.setReg .holding i v).hr } := rfl

theorem writeSingle_of_le {s : State} {i : Nat} (v : Word) (h : i + 1 ≤ s.holdingCount) :
    writeSingle s i v = some (s.setReg .holding i v) :=
  if_pos ((inRange_iff s .holding i 1).mpr h)

theorem writeSingle_of_lt {s : State} {i : Nat} (v : Word) (h : s.holdingCount < i + 1) : writeSingle s i v = none :=
  if_neg fun hin => Nat.not_le.mpr h ((inRange_iff s .holding i 1).mp hin)

/-- Settles O34: in range the answer is the bank's own write, whose effect on every register `reg_setReg_same` and
`reg_setReg_other` say; out of range there is no next state. -/
theorem writeSingleWritesOneRegister : Obligations.WriteSingleWritesOneRegister := by
  unfold Obligations.WriteSingleWritesOneRegister
  refine fun s a v => ⟨fun hin => ?inRange, writeSingle_of_lt v⟩
  case inRange =>
    exact ⟨s.setReg .holding a.toNat v, writeSingle_of_le v hin, reg_setReg_same s .holding a.toNat v,
      fun k j => reg_setReg_other s .holding k a.toNat j v, setReg_holding_eq s a.toNat v⟩

end Sys2Proof.Machine
end

section
/-! PROOFS. The frame synchronizer (spec/43_frame_synchronizer.md R107, R109, R112): the elapsed time as a difference of bit
vectors, the step that takes an event from the queue, and what `RxByte` and `Poll` do in `Idle`. -/

namespace Sys2Proof.Machine

/-! ## The clock (R107) -/

/-- A time reduced modulo `2^TW` is the same `TW`-bit number. -/
theorem ofNat_mod_two_pow (w n : Nat) : BitVec.ofNat w (n % 2 ^ w) = BitVec.ofNat w n :=
  BitVec.eq_of_toNat_eq (by simp)

/-- The time `last` cancels modulo `2^TW`, so a wrap of the counter does not show. -/
theorem elapsed_add (tw last d : Nat) : elapsed tw ((last + d) % 2 ^ tw) (last % 2 ^ tw) = d % 2 ^ tw := by
  have hdiff : BitVec.ofNat tw (last + d) - BitVec.ofNat tw last = BitVec.ofNat tw d := by
    rw [BitVec.ofNat_add, BitVec.add_comm, BitVec.add_sub_cancel]
  rw [elapsed, ofNat_mod_two_pow, ofNat_mod_two_pow, hdiff, BitVec.toNat_ofNat]

/-- Settles O9: `elapsed_add`, whose remainder is `d` itself below `2^TW`. -/
theorem elapsedIsTheTrueTime : Obligations.ElapsedIsTheTrueTime := by
  unfold Obligations.ElapsedIsTheTrueTime
  exact fun tw last d => ⟨elapsed_add tw last d, fun hd => (elapsed_add tw last d).trans (Nat.mod_eq_of_lt hd)⟩

/-- A time that the `TW`-bit counter can show is stored as it is (R7). -/
theorem time_of_lt {s : State} {now : Nat} (h : now < 2 ^ s.tw) : s.time now = now := Nat.mod_eq_of_lt h

/-! ## Events in `Idle` -/

/-- Without a complete frame `Process` is not enabled (R141). -/
theorem processEnabled_of_ne_frameReady {s : State} (h : s.syncState ≠ .frameReady) : s.processEnabled = false := by
  simp [State.processEnabled, h]

/-- When `Process` is not enabled, the step handles the oldest event. -/
theorem step_event {s : State} {e : Event} {es : List Event} (hp : s.processEnabled = false) (hin : s.inputs = e :: es) :
    step s = handle e { s with inputs := es } := by
  simp [step, machineStep, hp, hin]

theorem step_event_of_idle {s : State} {e : Event} {es : List Event} (hi : s.syncState = .idle) (hin : s.inputs = e :: es) :
    step s = handle e { s with inputs := es } :=
  step_event (processEnabled_of_ne_frameReady (by simp [hi])) hin

theorem rxByte_of_idle {s : State} (b : Byte) (now : Nat) (hc : s.configured = true) (hi : s.syncState = .idle) :
    rxByte b now s = .next (firstByte b now s) := by
  simp [rxByte, hc, hi]

theorem poll_of_idle {s : State} (now : Nat) (hc : s.configured = true) (hi : s.syncState = .idle) :
    poll now s = .next (s.report Result.idleResult) := by
  simp [poll, hc, hi]

/-- R109's assignments, at a time that the counter can show. -/
theorem firstByte_eq {s : State} (b : Byte) {now : Nat} (h : now < 2 ^ s.tw) :
    firstByte b now s = { s with
      rx := { s.rx with b0 := b }, pendingLen := 1, lastActivity := now, syncState := .accumulating,
      result := Result.mk .idle 0, out := s.out ++ [.result (Result.mk .idle 0)] } := by
  rw [firstByte, time_of_lt h]
  rfl

/-- Settles O10: the step takes the event, `RxByte` in `Idle` is `firstByte`, and `firstByte_eq` says what that assigns. -/
theorem firstByteStartsAFrame : Obligations.FirstByteStartsAFrame := by
  unfold Obligations.FirstByteStartsAFrame
  intro s b now es hin hc hi hnow
  calc step s
    _ = rxByte b now { s with inputs := es } := step_event_of_idle hi hin
    _ = .next (firstByte b now { s with inputs := es }) := rxByte_of_idle b now hc hi
    _ = _ := congrArg _ (firstByte_eq (s := { s with inputs := es }) b hnow)

/-- Settles O14: the step takes the event, and `Poll` in `Idle` is a report of `(Idle, 0)` and no more. -/
theorem pollInIdleHasNoSideEffect : Obligations.PollInIdleHasNoSideEffect := by
  unfold Obligations.PollInIdleHasNoSideEffect
  intro s now es hin hc hi
  calc step s
    _ = poll now { s with inputs := es } := step_event_of_idle hi hin
    _ = .next (({ s with inputs := es } : State).report Result.idleResult) := poll_of_idle now hc hi
    _ = _ := rfl

end Sys2Proof.Machine
end

section
/-! PROOFS. The server loop (spec/45_server_loop.md R141, R143): the step that runs `Process`, the verification of a frame, and
the drop of a frame whose CRC does not verify. -/

namespace Sys2Proof.Machine

/-- A configured core with a complete frame runs `Process` (R141). -/
theorem step_process {s : State} (hc : s.configured = true) (hf : s.syncState = .frameReady) : step s = process s := by
  simp [step, machineStep, State.processEnabled, hc, hf]

/-- Without a host access waiting, `Process` begins with the address test. -/
theorem process_quiet {s : State} (h : s.quiet) : process s = filterAndRun s := by
  rw [process, atGap_quiet h]

/-- Verification writes `CRC_ACC` and `CRC_MATCH` and no other field (R84). -/
theorem applyVerify_eq (s : State) :
    s.applyVerify = { s with crcAcc := crc16 s.rx.body, crcMatch := crc16 s.rx.body == s.rx.crcField } := rfl

theorem applyVerify_of_ne {s : State} (h : s.rx.crcField ≠ crc16 s.rx.body) :
    s.applyVerify = { s with crcAcc := crc16 s.rx.body, crcMatch := false } := by
  rw [applyVerify_eq, beq_false_of_ne h.symm]

/-- R143: a frame for this address that fails the verification is dropped before it is decoded. -/
theorem filterAndRun_of_crc_ne {s : State} (ha : s.rx.b0 = s.deviceAddr) (h : s.rx.crcField ≠ crc16 s.rx.body) :
    filterAndRun s = (dropFrame s.applyVerify).outcome := by
  have hmatch : s.applyVerify.crcMatch = false := by rw [applyVerify_of_ne h]
  simp only [filterAndRun, ne_eq, ha, not_true_eq_false, hmatch, Bool.false_eq_true, if_false]

/-- R141 `Drop` with no host activity inside: `Idle`, no byte pending, and the idle result reported. -/
theorem dropFrame_outcome_quiet {s : State} (h : s.quiet) :
    (dropFrame s).outcome = .next { s with
      pendingLen := 0, syncState := .idle, result := Result.mk .idle 0, out := s.out ++ [.result (Result.mk .idle 0)] } := by
  rw [dropFrame_quiet s h]
  rfl

/-- Settles O53: the step is `Process`, the CRC test sends the frame to `Drop`, and `Drop` acts on the state in which the
verification has cleared `CRC_MATCH`. -/
theorem corruptFrameIsDropped : Obligations.CorruptFrameIsDropped := by
  unfold Obligations.CorruptFrameIsDropped
  intro s hc hf hq ha hcrc
  calc step s
    _ = process s := step_process hc hf
    _ = filterAndRun s := process_quiet hq
    _ = (dropFrame s.applyVerify).outcome := filterAndRun_of_crc_ne ha hcrc
    _ = (dropFrame { s with crcAcc := crc16 s.rx.body, crcMatch := false }).outcome := by rw [applyVerify_of_ne hcrc]
    _ = _ := dropFrame_outcome_quiet hq

end Sys2Proof.Machine
end

section
/-! PROOFS. Requests as bytes (spec/30_encoding.md R60 to R68): what the decoder answers for each function code, which parts of a
frame it reads, and how decoding and encoding undo each other. -/

namespace Sys2Proof

/-! ## One equation for each function code (R68, R121) -/

theorem decode_of_rhr {f : Frame} (h : f.b1 = 0x03) : decode f = .rhr f.b0 (be16 f.b2 f.b3) (be16 f.b4 f.b5) := if_pos h

theorem decode_of_rir {f : Frame} (h : f.b1 = 0x04) : decode f = .rir f.b0 (be16 f.b2 f.b3) (be16 f.b4 f.b5) := by
  simp [decode, h]

theorem decode_of_wsr {f : Frame} (h : f.b1 = 0x06) : decode f = .wsr f.b0 (be16 f.b2 f.b3) (be16 f.b4 f.b5) := by
  simp [decode, h]

theorem decode_of_illfn {f : Frame} (h3 : f.b1 ≠ 0x03) (h4 : f.b1 ≠ 0x04) (h6 : f.b1 ≠ 0x06) :
    decode f = .illfn f.b0 f.b1 (be16 f.b2 f.b3) (be16 f.b4 f.b5) := by
  rw [decode, if_neg h3, if_neg h4, if_neg h6]

/-- A well-formed `ILLFN` has none of the three named function codes (R68). -/
theorem illfn_wf_iff {addr fc : Byte} {a b : Word} :
    (Instr.illfn addr fc a b).wf = true ↔ fc ≠ 0x03 ∧ fc ≠ 0x04 ∧ fc ≠ 0x06 := by
  simp [Instr.wf, and_assoc]

/-- What every form of a decoded request has in common: its operands are the header bytes of the frame, and it is well-formed. -/
theorem decode_operands (f : Frame) :
    (decode f).addr = f.b0 ∧ (decode f).functionCode = f.b1 ∧ (decode f).fieldA = be16 f.b2 f.b3 ∧
      (decode f).fieldB = be16 f.b4 f.b5 ∧ (decode f).wf = true := by
  by_cases h3 : f.b1 = 0x03
  · rw [decode_of_rhr h3]; exact ⟨rfl, h3.symm, rfl, rfl, rfl⟩
  by_cases h4 : f.b1 = 0x04
  · rw [decode_of_rir h4]; exact ⟨rfl, h4.symm, rfl, rfl, rfl⟩
  by_cases h6 : f.b1 = 0x06
  · rw [decode_of_wsr h6]; exact ⟨rfl, h6.symm, rfl, rfl, rfl⟩
  · rw [decode_of_illfn h3 h4 h6]; exact ⟨rfl, rfl, rfl, rfl, illfn_wf_iff.mpr ⟨h3, h4, h6⟩⟩

@[simp] theorem decode_addr (f : Frame) : (decode f).addr = f.b0 := (decode_operands f).1

@[simp] theorem decode_functionCode (f : Frame) : (decode f).functionCode = f.b1 := (decode_operands f).2.1

@[simp] theorem decode_fieldA (f : Frame) : (decode f).fieldA = be16 f.b2 f.b3 := (decode_operands f).2.2.1

@[simp] theorem decode_fieldB (f : Frame) : (decode f).fieldB = be16 f.b4 f.b5 := (decode_operands f).2.2.2.1

theorem decode_wf (f : Frame) : (decode f).wf = true := (decode_operands f).2.2.2.2

/-! ## Decoding and encoding -/

/-- The header bytes of a request's frame are taken back together to its two fields. -/
@[simp] theorem encode_fieldA (i : Instr) : be16 (encode i).b2 (encode i).b3 = i.fieldA := be16_hi8_lo8 i.fieldA

@[simp] theorem encode_fieldB (i : Instr) : be16 (encode i).b4 (encode i).b5 = i.fieldB := be16_hi8_lo8 i.fieldB

theorem decode_encode {i : Instr} (h : i.wf = true) : decode (encode i) = i := by
  cases i with
  | rhr addr start count => rw [decode_of_rhr rfl, encode_fieldA, encode_fieldB]; rfl
  | rir addr start count => rw [decode_of_rir rfl, encode_fieldA, encode_fieldB]; rfl
  | wsr addr reg value => rw [decode_of_wsr rfl, encode_fieldA, encode_fieldB]; rfl
  | illfn addr fc a b =>
    obtain ⟨h3, h4, h6⟩ := illfn_wf_iff.mp h
    rw [decode_of_illfn h3 h4 h6, encode_fieldA, encode_fieldB]
    rfl

/-- Settles O21: one function code selects the decoder's equation, and the two bytes of each field make it again. -/
theorem decodeOfEncodeIsTheRequest : Obligations.DecodeOfEncodeIsTheRequest := by
  unfold Obligations.DecodeOfEncodeIsTheRequest
  exact fun _ => decode_encode

/-- The six bytes of a decoded request are those of the frame (R60). -/
@[simp] theorem decode_body (f : Frame) : (decode f).body = f.body := by
  simp [Instr.body, Frame.body]

/-- A CRC field is the word of its two bytes, low byte first (R63). -/
theorem crcField_bytes (f : Frame) : lo8 f.crcField = f.b6 ∧ hi8 f.crcField = f.b7 :=
  ⟨lo8_be16 f.b7 f.b6, hi8_be16 f.b7 f.b6⟩

theorem encode_decode {f : Frame} (h : f.crcField = crc16 f.body) : encode (decode f) = f := by
  obtain ⟨h6, h7⟩ := crcField_bytes f
  simp [encode, ← h, h6, h7]

/-- Settles O22: the six bytes are `decode_body`, and the CRC bytes are those of the verified field. -/
theorem verifiedFrameIsItsRequest : Obligations.VerifiedFrameIsItsRequest := by
  unfold Obligations.VerifiedFrameIsItsRequest
  exact fun f => ⟨decode_wf f, encode_decode⟩

/-- Settles O25: the fields are `be16` of the header bytes, whose number `toNat_be16` gives. -/
theorem headerFieldsAreBigEndian : Obligations.HeaderFieldsAreBigEndian := by
  unfold Obligations.HeaderFieldsAreBigEndian
  refine fun f => ⟨decode_addr f, decode_functionCode f, ?fieldA, ?fieldB⟩
  case fieldA => rw [decode_fieldA, toNat_be16]
  case fieldB => rw [decode_fieldB, toNat_be16]

/-! ## The numbering of the opcode table (R8) -/

theorem decodeTableWord_eq {w : Nat} (h : w < 2 ^ 64) : decodeTableWord 64 w = some (decode (Frame.ofTableWord w)) := by
  rw [decodeTableWord, Nat.mod_eq_of_lt h]
  rfl

/-- Masking bits 55 to 48 leaves the second byte of the frame, in its place. -/
theorem and_functionCode_mask (w : Nat) : w &&& 0x00FF000000000000 = (w / 2 ^ 48 % 2 ^ 8) * 2 ^ 48 := by
  rw [show 0x00FF000000000000 = (2 ^ 8 - 1) * 2 ^ 48 by norm_num]
  apply Nat.eq_of_testBit_eq
  intro j
  rw [Nat.testBit_and, Nat.testBit_mul_two_pow, Nat.testBit_mul_two_pow, Nat.testBit_two_pow_sub_one, Nat.testBit_mod_two_pow,
    Nat.testBit_div_two_pow]
  by_cases hj : 48 ≤ j
  · simp [hj, Bool.and_comm]
  · simp [hj]

theorem toNat_ofTableWord_b1 (w : Nat) : (Frame.ofTableWord w).b1.toNat = w / 2 ^ 48 % 256 := by
  simp [Frame.ofTableWord, tableByte]

/-- A function code is selected by the mask and match values of R68. -/
theorem ofTableWord_b1_eq_iff (w : Nat) (c : Byte) :
    (Frame.ofTableWord w).b1 = c ↔ w &&& 0x00FF000000000000 = c.toNat * 2 ^ 48 := by
  rw [and_functionCode_mask, ← BitVec.toNat_inj, toNat_ofTableWord_b1]
  omega

/-- Settles O24: the mask tests the second byte of the frame, and that byte alone selects the decoder's equation. -/
theorem functionCodeMapIsComplete : Obligations.FunctionCodeMapIsComplete := by
  unfold Obligations.FunctionCodeMapIsComplete
  intro w hw
  rw [decodeTableWord_eq hw]
  have h3 := ofTableWord_b1_eq_iff w 0x03
  have h4 := ofTableWord_b1_eq_iff w 0x04
  have h6 := ofTableWord_b1_eq_iff w 0x06
  refine ⟨fun h => ⟨_, _, _, congrArg some (decode_of_rhr (h3.mpr h))⟩,
    fun h => ⟨_, _, _, congrArg some (decode_of_rir (h4.mpr h))⟩,
    fun h => ⟨_, _, _, congrArg some (decode_of_wsr (h6.mpr h))⟩,
    fun n3 n4 n6 => ⟨_, _, _, _, congrArg some (decode_of_illfn (mt h3.mp n3) (mt h4.mp n4) (mt h6.mp n6)), ?_⟩⟩
  exact toNat_ofTableWord_b1 w

/-- Settles O23: each word is a closed instance of the decoder. -/
theorem wordsOfTheTableDecode : Obligations.WordsOfTheTableDecode := by
  unfold Obligations.WordsOfTheTableDecode
  decide

end Sys2Proof
end

section
/-! PROOFS. The CRC engine (spec/40_crc_engine.md R80 to R85): the bitwise step is linear and loses nothing, the table is eight
such steps, and so one update tells its byte and the CRC before it apart. -/

namespace Sys2Proof

open Machine

/-! ## The fold (R80, R81) -/

theorem crc16_append_singleton (bs : List Byte) (b : Byte) : crc16 (bs ++ [b]) = crcUpdate (crc16 bs) b := by
  simp [crc16]

/-- Settles O27: the fold over one byte more is one update more. -/
theorem crcFoldsOverTheSpan : Obligations.CrcFoldsOverTheSpan := by
  unfold Obligations.CrcFoldsOverTheSpan
  refine ⟨rfl, fun bs b => ?_⟩
  rw [crc16_append_singleton, crcUpdate, lo8_eq_ofNat]

/-! ## The bitwise step (R82) -/

/-- The step as a shift and a correction. -/
theorem crcShift_eq (c : Word) : crcShift c = c >>> 1 ^^^ if c.getLsbD 0 then 0xA001 else 0 := by
  unfold crcShift
  split <;> simp

/-- The step is linear. -/
theorem crcShift_xor (x y : Word) : crcShift (x ^^^ y) = crcShift x ^^^ crcShift y := by
  have hcorr : (if (x ^^^ y).getLsbD 0 then 0xA001 else 0 : Word) =
      (if x.getLsbD 0 then 0xA001 else 0) ^^^ (if y.getLsbD 0 then 0xA001 else 0) := by
    rw [BitVec.getLsbD_xor]
    cases x.getLsbD 0 <;> cases y.getLsbD 0 <;> rfl
  rw [crcShift_eq, crcShift_eq, crcShift_eq, hcorr, BitVec.ushiftRight_xor_distrib]
  ac_rfl

/-- The step loses nothing: the highest bit of the result says whether the polynomial, whose highest bit is 1, was added. -/
theorem crcShift_eq_zero {c : Word} (h : crcShift c = 0) : c = 0 := by
  have hbit : ∀ j, (crcShift c).getLsbD j = false := by simp [h]
  have hlow : c.getLsbD 0 = false := by
    have htop := hbit 15
    rw [crcShift_eq] at htop
    cases hc : c.getLsbD 0 <;> simp [hc] at htop ⊢
  refine BitVec.eq_of_getLsbD_eq fun j hj => ?_
  cases j with
  | zero => simpa using hlow
  | succ j =>
    have hj' := hbit j
    rw [crcShift_eq, hlow] at hj'
    simpa [Nat.add_comm] using hj'

theorem crcShift_injective : Function.Injective crcShift := by
  intro x y h
  refine BitVec.xor_eq_zero_iff.mp (crcShift_eq_zero ?_)
  rw [crcShift_xor, h, BitVec.xor_self]
  rfl

theorem crcShift8_xor (x y : Word) : crcShift8 (x ^^^ y) = crcShift8 x ^^^ crcShift8 y := by
  simp only [crcShift8, crcShift_xor]

theorem crcShift8_injective : Function.Injective crcShift8 :=
  (crcShift_injective.iterate 8 : Function.Injective (crcShift^[8]))

/-! ## The table (R82) -/

/-- Eight steps take a high byte down, unchanged: no bit of it reaches the bottom. -/
theorem crcShift8_high : ∀ b : Byte, crcShift8 (b.setWidth 16 <<< 8) = b.setWidth 16 := by decide +kernel

theorem crctab_eq : ∀ k : Byte, crctab k = crcShift8 (k.setWidth 16) := by decide +kernel

/-- A word is its high byte and its low byte, each in its place. -/
theorem word_eq_xor (c : Word) : c = (hi8 c).setWidth 16 <<< 8 ^^^ (lo8 c).setWidth 16 := by
  refine BitVec.eq_of_getLsbD_eq fun j hj => ?_
  by_cases h : j < 8
  · simp [hi8, lo8, h, hj]
  · simp [hi8, lo8, h, hj, show j - 8 < 8 by omega, show 8 + (j - 8) = j by omega]

theorem setWidth_hi8 (c : Word) : (hi8 c).setWidth 16 = c >>> 8 := by
  refine BitVec.eq_of_getLsbD_eq fun j hj => ?_
  simp [hi8, hj]
  intro h
  have := c.lt_of_getLsbD h
  omega

/-- The table-driven update is the bitwise one: the high byte of the CRC passes through, the low byte goes to the table. -/
theorem crcUpdate_eq_crcShift8 (c : Word) (b : Byte) : crcUpdate c b = crcShift8 (c ^^^ b.setWidth 16) := by
  calc crcUpdate c b
    _ = (hi8 c).setWidth 16 ^^^ crcShift8 ((b ^^^ lo8 c).setWidth 16) := by rw [crcUpdate, crctab_eq, setWidth_hi8]
    _ = crcShift8 ((hi8 c).setWidth 16 <<< 8) ^^^ crcShift8 ((b ^^^ lo8 c).setWidth 16) := by rw [crcShift8_high]
    _ = crcShift8 ((hi8 c).setWidth 16 <<< 8 ^^^ (lo8 c).setWidth 16 ^^^ b.setWidth 16) := by
      rw [← crcShift8_xor, BitVec.setWidth_xor, BitVec.xor_comm (b.setWidth 16), BitVec.xor_assoc]
    _ = crcShift8 (c ^^^ b.setWidth 16) := by rw [← word_eq_xor]

/-- Settles O28: the table is computed for each of its 256 entries, and `crcUpdate_eq_crcShift8` is the update. -/
theorem tableUpdateIsTheBitwiseUpdate : Obligations.TableUpdateIsTheBitwiseUpdate := by
  unfold Obligations.TableUpdateIsTheBitwiseUpdate
  exact ⟨crctab_eq, crcUpdate_eq_crcShift8⟩

/-! ## What one update tells apart -/

theorem crcUpdate_left_injective (b : Byte) : Function.Injective fun c => crcUpdate c b := by
  intro c c' h
  simp only [crcUpdate_eq_crcShift8] at h
  exact BitVec.xor_left_inj _ |>.mp (crcShift8_injective h)

theorem crcUpdate_right_injective (c : Word) : Function.Injective (crcUpdate c) := by
  intro b b' h
  rw [crcUpdate_eq_crcShift8, crcUpdate_eq_crcShift8] at h
  have hw : b.setWidth 16 = b'.setWidth 16 := BitVec.xor_right_inj _ |>.mp (crcShift8_injective h)
  simpa using congrArg (BitVec.setWidth 8) hw

/-- Two CRCs that differ still differ behind the same bytes. -/
theorem foldl_crcUpdate_injective (bs : List Byte) : Function.Injective fun c => bs.foldl crcUpdate c := by
  induction bs with
  | nil => exact Function.injective_id
  | cons b bs ih => exact ih.comp (crcUpdate_left_injective b)

/-- One byte changed in a span changes its CRC. -/
theorem crc16_modify_ne {bs : List Byte} {n : Nat} {g : Byte → Byte} (hn : n < bs.length) (hg : ∀ b, g b ≠ b) :
    crc16 (bs.modify n g) ≠ crc16 bs := by
  intro h
  have hsplit : crc16 bs = crc16 (bs.take n ++ bs[n] :: bs.drop (n + 1)) := by simp
  rw [List.modify_eq_take_cons_drop hn, hsplit] at h
  simp only [crc16, List.foldl_append, List.foldl_cons] at h
  exact hg _ (crcUpdate_right_injective _ (foldl_crcUpdate_injective _ h))

/-! ## Append and verify (R83 to R85) -/

/-- R84: mode Verify compares the CRC of the first `n` bytes with the two bytes behind them. -/
theorem crcApply_verify (buf : List Byte) (n : Nat) :
    crcApply buf n .verify =
      CrcApplied.mk buf (crc16 (buf.take n)) (some (crc16 (buf.take n) == le16 (buf.getD n 0) (buf.getD (n + 1) 0))) := rfl

/-- R83: mode Append writes the CRC of the first `n` bytes behind them. -/
theorem crcApply_append_buffer (buf : List Byte) (n : Nat) :
    (crcApply buf n .append).buffer = memWrite buf n (leBytes (crc16 (buf.take n))) := rfl

/-- Settles O29: the buffer's write of two bytes, written out; its room keeps the buffer's size. -/
theorem appendWritesTheCrcBehindTheBody : Obligations.AppendWritesTheCrcBehindTheBody := by
  unfold Obligations.AppendWritesTheCrcBehindTheBody
  exact fun s _ => rfl

/-- Settles O30: the two bytes are read where they stand, and the verification of `RX` is `applyVerify_eq`. -/
theorem verifyComparesAndChangesNoByte : Obligations.VerifyComparesAndChangesNoByte := by
  unfold Obligations.VerifyComparesAndChangesNoByte
  refine ⟨fun buf n x y hx hy => ?compare, fun s => ?receive, by decide +kernel⟩
  case compare => rw [crcApply_verify, List.getD_eq_getElem?_getD, List.getD_eq_getElem?_getD, hx, hy]; rfl
  case receive => exact applyVerify_eq s

/-- A buffer that begins with a body and the CRC of it verifies. -/
theorem isMatch_verify_append (body rest : List Byte) (x y : Byte) :
    (crcApply (body ++ x :: y :: rest) body.length .verify).isMatch = some (crc16 body == le16 x y) := by
  simp [crcApply_verify]

/-- Settles O31: behind the body stand the two bytes of its CRC, which `le16` takes back. -/
theorem appendedCrcVerifies : Obligations.AppendedCrcVerifies := by
  unfold Obligations.AppendedCrcVerifies
  intro buf n hn
  have hlen : (buf.take n).length = n := by simp; omega
  rw [crcApply_append_buffer]
  refine ⟨?verifies, ?body, memWrite_length buf n _ hn⟩
  case verifies =>
    have h := isMatch_verify_append (buf.take n) (buf.drop (n + 2)) (lo8 (crc16 (buf.take n))) (hi8 (crc16 (buf.take n)))
    rw [hlen, Laws.EncodedFrameVerifies.le16_lo8_hi8, beq_self_eq_true] at h
    rw [memWrite, leBytes, List.append_assoc]
    exact h
  case body => simp [memWrite, hlen]

/-- Settles O33: each of the two bytes cancels what is left of the CRC, so the table is asked for entry 0 twice. -/
theorem crcResidueIsZero : Obligations.CrcResidueIsZero := by
  unfold Obligations.CrcResidueIsZero
  intro body
  have hlow : ∀ c : Word, crcUpdate c (lo8 c) = c >>> 8 := fun c => by
    rw [crcUpdate, BitVec.xor_self]; exact BitVec.xor_zero
  have hhigh : ∀ c : Word, crcUpdate (c >>> 8) (hi8 c) = 0 := fun c => by
    rw [crcUpdate, show lo8 (c >>> 8) = hi8 c from rfl, BitVec.xor_self, ← BitVec.shiftRight_add,
      BitVec.ushiftRight_eq_zero (by omega)]
    rfl
  calc crc16 (withCrc body)
    _ = crcUpdate (crcUpdate (crc16 body) (lo8 (crc16 body))) (hi8 (crc16 body)) := by
      simp [withCrc, leBytes, crc16]
    _ = 0 := by rw [hlow, hhigh]

/-- One byte changed behind a body, in its CRC bytes, makes them another word. -/
theorem le16_inj {x y x' y' : Byte} (h : le16 x y = le16 x' y') : x = x' ∧ y = y' := by
  have hlo := congrArg lo8 h
  have hhi := congrArg hi8 h
  simp only [le16_eq_be16, lo8_be16, hi8_be16] at hlo hhi
  exact ⟨hlo, hhi⟩

theorem modify_append_left {n : Nat} (g : Byte → Byte) {bs : List Byte} (cs : List Byte) (h : n < bs.length) :
    (bs ++ cs).modify n g = bs.modify n g ++ cs := by
  simp [List.modify_eq_take_cons_drop, h, Nat.lt_add_right, List.take_append_of_le_length h.le,
    List.drop_append_of_le_length (Nat.succ_le_of_lt h)]

theorem modify_append_right (m : Nat) (g : Byte → Byte) (bs cs : List Byte) :
    (bs ++ cs).modify (bs.length + m) g = bs ++ cs.modify m g := List.modifyTailIdx_add _ m bs cs

/-- A changed byte anywhere in a CRC-appended span makes Verify answer mismatch. -/
theorem isMatch_verify_modify {body : List Byte} {n : Nat} {g : Byte → Byte} (hn : n < body.length + 2) (hg : ∀ b, g b ≠ b) :
    (crcApply ((withCrc body).modify n g) body.length .verify).isMatch = some false := by
  have hcrc : crc16 body = le16 (lo8 (crc16 body)) (hi8 (crc16 body)) := (Laws.EncodedFrameVerifies.le16_lo8_hi8 _).symm
  by_cases hb : n < body.length
  · have hne : crc16 (body.modify n g) ≠ crc16 body := crc16_modify_ne hb hg
    have h := isMatch_verify_append (body.modify n g) [] (lo8 (crc16 body)) (hi8 (crc16 body))
    rw [← hcrc, beq_false_of_ne hne, List.length_modify] at h
    rw [withCrc, leBytes, modify_append_left _ _ hb]
    exact h
  · obtain ⟨m, rfl⟩ := Nat.exists_eq_add_of_le (Nat.le_of_not_lt hb)
    have hne : ∀ x y, x ≠ lo8 (crc16 body) ∨ y ≠ hi8 (crc16 body) →
        (crcApply (body ++ [x, y]) body.length .verify).isMatch = some false := fun x y hxy => by
      rw [isMatch_verify_append, beq_false_of_ne]
      intro hc
      obtain ⟨hx, hy⟩ := le16_inj (hcrc.symm.trans hc)
      exact hxy.elim (fun h => h hx.symm) fun h => h hy.symm
    rw [withCrc, leBytes, modify_append_right]
    obtain rfl | rfl : m = 0 ∨ m = 1 := by omega
    · exact hne _ _ (.inl (hg _))
    · exact hne _ _ (.inr (hg _))

/-- Settles O32: flipping a bit changes its byte. -/
theorem singleBitFlipNeverVerifies : Obligations.SingleBitFlipNeverVerifies := by
  unfold Obligations.SingleBitFlipNeverVerifies
  intro body j hj
  refine isMatch_verify_modify (by omega) fun b h => ?_
  have hbit := congrArg (fun x : Byte => x.getLsbD (j % 8)) h
  simp [Nat.mod_lt] at hbit

end Sys2Proof
end

section
/-! PROOFS. Reset and configuration (spec/10_state.md R31; 70_reset_and_hazards.md R170 to R176): what an unconfigured core does with
each event, and which configurations it loads. -/

namespace Sys2Proof.Machine

/-- Settles O1: the reset state is written out. -/
theorem resetLeavesTheStatedValues : Obligations.ResetLeavesTheStatedValues := by
  unfold Obligations.ResetLeavesTheStatedValues
  exact ⟨rfl, rfl, rfl, rfl, rfl, rfl, rfl, rfl, rfl, rfl, rfl⟩

/-- An unconfigured core runs no `Process` (R174). -/
theorem processEnabled_of_unconfigured {s : State} (h : s.configured = false) : s.processEnabled = false := by
  simp [State.processEnabled, h]

theorem rxByte_of_unconfigured {s : State} (b : Byte) (now : Nat) (h : s.configured = false) :
    rxByte b now s = .refused .rxByteNotEnabled := by
  simp [rxByte, h]

theorem poll_of_unconfigured {s : State} (now : Nat) (h : s.configured = false) :
    poll now s = .refused .pollNotEnabled := by
  simp [poll, h]

theorem whenSized_of_configured {s : State} (f : State → State) (h : s.configured = true) : whenSized f s = .next (f s) :=
  if_pos h

theorem whenSized_of_unconfigured {s : State} (f : State → State) (h : s.configured = false) :
    whenSized f s = .refused .sizesNotConfigured := by
  simp [whenSized, h]

/-! ## `Configure` (R174, R176) -/

theorem configure_refused {s : State} (c : Cfg) (h : s.configured = true ∨ s.cfgError = true) :
    configure c s = .refused .configureNotEnabled := by
  rw [configure, if_pos (by simpa using h)]

theorem configure_wellFormed {s : State} {c : Cfg} (hc : s.configured = false) (he : s.cfgError = false)
    (hw : c.wf s.tw = true) : configure c s = .next (loadConfig c s).flagConfigured := by
  simp [configure, hc, he, hw]

theorem configure_illFormed {s : State} {c : Cfg} (hc : s.configured = false) (he : s.cfgError = false)
    (hw : c.wf s.tw = false) : configure c s = .next s.flagCfgError := by
  simp [configure, hc, he, hw]

/-- The flags of a failed `Configure`, on a core whose `CONFIGURED` is clear. -/
theorem flagCfgError_eq {s : State} (h : s.configured = false) : s.flagCfgError = { s with cfgError := true } := by
  rw [State.flagCfgError, ← h]

/-- Settles O4: the step is `configure`, which loads every register from `c` and binds a held array as it is. -/
theorem wellFormedConfigureLoads : Obligations.WellFormedConfigureLoads := by
  unfold Obligations.WellFormedConfigureLoads
  intro s c es hin hc he hw
  refine ⟨(loadConfig c { s with inputs := es }).flagConfigured, ?step, rfl, rfl, rfl, rfl, rfl, rfl, rfl, rfl, rfl, rfl, ?ir, ?hr,
    rfl, rfl, rfl, rfl, rfl⟩
  case step => exact (step_event (processEnabled_of_unconfigured hc) hin).trans (configure_wellFormed hc he hw)
  case ir => intro h; simp [h, bindArray]
  case hr => intro h; simp [h, bindArray]

/-- Settles O5: the step is `configure`, which sets the one flag. -/
theorem illFormedConfigureLoadsNothing : Obligations.IllFormedConfigureLoadsNothing := by
  unfold Obligations.IllFormedConfigureLoadsNothing
  intro s c es hin hc he hw
  calc step s
    _ = configure c { s with inputs := es } := step_event (processEnabled_of_unconfigured hc) hin
    _ = .next ({ s with inputs := es } : State).flagCfgError := configure_illFormed hc he hw
    _ = _ := congrArg _ (flagCfgError_eq hc)

theorem sizeLegal_iff (n : Nat) : sizeLegal n = true ↔ 1 ≤ n ∧ n ≤ 65536 := by
  simp [sizeLegal]

theorem present_iff (a : Supply) : a.present = true ↔ a ≠ .missing := by
  cases a <;> simp [Supply.present]

/-- R6: the checks of a configuration, one by one. -/
theorem cfg_wf_iff (tw : Nat) (c : Cfg) :
    c.wf tw = true ↔
      (1 ≤ c.inputCount ∧ c.inputCount ≤ 65536) ∧ (1 ≤ c.holdingCount ∧ c.holdingCount ≤ 65536) ∧
      c.inputArray ≠ .missing ∧ c.holdingArray ≠ .missing ∧ (1 ≤ c.maxReadCount ∧ c.maxReadCount ≤ 127) ∧
      (1 ≤ c.timeout ∧ c.timeout < 2 ^ tw) ∧ c.byteSource = true ∧ c.byteSink = true := by
  simp [Cfg.wf, sizeLegal_iff, present_iff, and_assoc]

/-- Settles O6: `cfg_wf_iff` takes the checks apart. -/
theorem configurationWellFormedness : Obligations.ConfigurationWellFormedness := by
  unfold Obligations.ConfigurationWellFormedness
  exact cfg_wf_iff

/-- Settles O7: each event is taken by the step and refused by its own rule. -/
theorem eventsNotEnabledAreRefused : Obligations.EventsNotEnabledAreRefused := by
  unfold Obligations.EventsNotEnabledAreRefused
  refine ⟨fun s b now es hin hc => ?rxByte, fun s now es hin hc => ?poll, fun s c es hin hp h => ?configure⟩
  case rxByte => exact (step_event (processEnabled_of_unconfigured hc) hin).trans (rxByte_of_unconfigured b now hc)
  case poll => exact (step_event (processEnabled_of_unconfigured hc) hin).trans (poll_of_unconfigured now hc)
  case configure => exact (step_event hp hin).trans (configure_refused c h)

/-- Settles O59: both bulk events wait for the sizes. -/
theorem bulkEventsBeforeConfigureAreRefused : Obligations.BulkEventsBeforeConfigureAreRefused := by
  unfold Obligations.BulkEventsBeforeConfigureAreRefused
  rintro s k start n vs es hc (hin | hin)
  · exact (step_event (processEnabled_of_unconfigured hc) hin).trans (whenSized_of_unconfigured _ hc)
  · exact (step_event (processEnabled_of_unconfigured hc) hin).trans (whenSized_of_unconfigured _ hc)

/-- Without an event and without a ready frame the state stays (R168, R185). -/
theorem step_of_no_input {s : State} (hp : s.processEnabled = false) (hin : s.inputs = []) : step s = .next s := by
  simp [step, machineStep, hp, hin]

/-- Settles O56: `Process` is not enabled and the queue is empty. -/
theorem quiescentCoreDoesNothing : Obligations.QuiescentCoreDoesNothing := by
  unfold Obligations.QuiescentCoreDoesNothing
  exact fun s hs hin => step_of_no_input (processEnabled_of_ne_frameReady hs) hin

end Sys2Proof.Machine
end

section
/-! PROOFS. The register bank under the host (spec/42_register_bank.md R96 to R102): reads of a range, the bulk operations, and single
accesses. -/

namespace Sys2Proof.Machine

/-! ## Reading a range (R96, R98) -/

theorem readRange_of_le {s : State} {k : RegKind} {start count : Nat} (h : start + count ≤ s.size k) :
    readRange s k start count = some ((List.range count).map fun i => s.reg k (start + i)) :=
  if_pos ((inRange_iff s k start count).mpr h)

theorem readRange_of_lt {s : State} {k : RegKind} {start count : Nat} (h : s.size k < start + count) :
    readRange s k start count = none :=
  if_neg fun hin => Nat.not_le.mpr h ((inRange_iff s k start count).mp hin)

theorem getElem?_map_range_reg (s : State) (k : RegKind) (start : Nat) {count i : Nat} (h : i < count) :
    ((List.range count).map fun i => s.reg k (start + i))[i]? = some (s.reg k (start + i)) := by
  simp [h]

/-- Settles O35: in range the list of the registers, out of range nothing. -/
theorem readRangeIsAllOrNothing : Obligations.ReadRangeIsAllOrNothing := by
  unfold Obligations.ReadRangeIsAllOrNothing
  refine fun s k start count => ⟨fun h => ⟨_, readRange_of_le h, by simp, fun i hi => ?_⟩, readRange_of_lt⟩
  exact getElem?_map_range_reg s k start.toNat hi

/-! ## The bulk operations (R100, R101) -/

/-- A bulk load writes its own registers, in order, and no other. -/
theorem reg_loadValues (k : RegKind) (start : Nat) (vs : List Word) (s : State) :
    (∀ i < vs.length, vs[i]? = some ((loadValues k start vs s).reg k (start + i))) ∧
    ∀ k' j, ¬(k' = k ∧ start ≤ j ∧ j < start + vs.length) → (loadValues k start vs s).reg k' j = s.reg k' j := by
  induction vs generalizing start s with
  | nil => exact ⟨by simp, fun _ _ _ => rfl⟩
  | cons v vs ih =>
    obtain ⟨hin, hout⟩ := ih (start + 1) (s.setReg k start v)
    refine ⟨fun i hi => ?_, fun k' j hj => ?_⟩
    · cases i with
      | zero => simp [loadValues, hout k start (by omega)]
      | succ i => simpa [loadValues, Nat.add_assoc, Nat.add_comm 1] using hin i (by simpa using hi)
    · rw [List.length_cons] at hj
      rw [loadValues, hout k' j fun h => hj ⟨h.1, by omega, by omega⟩]
      exact reg_setReg_other s k k' start j v fun h => hj ⟨h.1, by omega, by omega⟩

/-- A write of one register replaces the two arrays at most. -/
theorem setReg_eq (s : State) (k : RegKind) (i : Nat) (v : Word) :
    s.setReg k i v = { s with hr := (s.setReg k i v).hr, ir := (s.setReg k i v).ir } := by
  cases k <;> rfl

theorem loadValues_eq (k : RegKind) (start : Nat) (vs : List Word) (s : State) :
    loadValues k start vs s = { s with hr := (loadValues k start vs s).hr, ir := (loadValues k start vs s).ir } := by
  induction vs generalizing start s with
  | nil => rfl
  | cons v vs ih =>
    rw [loadValues, ih, setReg_eq]

theorem bulkLoad_of_le {s : State} {k : RegKind} {start : Nat} {vs : List Word} (h : start + vs.length ≤ s.size k) :
    bulkLoad k start vs s = loadValues k start vs s :=
  if_pos ((inRange_iff s k start vs.length).mpr h)

theorem bulkLoad_of_lt {s : State} {k : RegKind} {start : Nat} {vs : List Word} (h : s.size k < start + vs.length) :
    bulkLoad k start vs s = s :=
  if_neg fun hin => Nat.not_le.mpr h ((inRange_iff s k start vs.length).mp hin)

theorem bulkStore_of_le {s : State} {k : RegKind} {start n : Nat} (h : start + n ≤ s.size k) :
    bulkStore k start n s = s.emit (.hostValues k start ((List.range n).map fun i => s.reg k (start + i))) := by
  rw [bulkStore, readRange_of_le h]

theorem bulkStore_of_lt {s : State} {k : RegKind} {start n : Nat} (h : s.size k < start + n) : bulkStore k start n s = s := by
  rw [bulkStore, readRange_of_lt h]

/-- Taking an event from the queue touches no register. -/
@[simp] theorem reg_inputs (s : State) (es : List Event) (k : RegKind) (i : Nat) :
    ({ s with inputs := es } : State).reg k i = s.reg k i := reg_congr rfl rfl k i

@[simp] theorem size_inputs (s : State) (es : List Event) (k : RegKind) : ({ s with inputs := es } : State).size k = s.size k := by
  cases k <;> rfl

/-- Settles O36: the load is `loadValues`, whose effect on every register `reg_loadValues` says. -/
theorem bulkLoadIsWholeOrNothing : Obligations.BulkLoadIsWholeOrNothing := by
  unfold Obligations.BulkLoadIsWholeOrNothing
  intro s k start vs es hc hp hin
  have hstep : step s = .next (bulkLoad k start vs { s with inputs := es }) :=
    (step_event hp hin).trans (whenSized_of_configured _ hc)
  refine ⟨fun hle => ⟨loadValues k start vs { s with inputs := es }, ?step, ?inside, ?outside, loadValues_eq _ _ _ _⟩,
    fun hlt => ?none⟩
  case step => rw [hstep, bulkLoad_of_le (by simpa using hle)]
  case inside => exact (reg_loadValues k start vs { s with inputs := es }).1
  case outside => simpa using (reg_loadValues k start vs { s with inputs := es }).2
  case none => rw [hstep, bulkLoad_of_lt (by simpa using hlt)]

/-- Settles O37: the store hands out what `readRange` gives. -/
theorem bulkStoreHarvestsARange : Obligations.BulkStoreHarvestsARange := by
  unfold Obligations.BulkStoreHarvestsARange
  intro s k start n es hc hp hin
  have hstep : step s = .next (bulkStore k start n { s with inputs := es }) :=
    (step_event hp hin).trans (whenSized_of_configured _ hc)
  refine ⟨fun hle => ⟨(List.range n).map fun i => s.reg k (start + i), ?step, by simp, fun i hi => ?value⟩, fun hlt => ?none⟩
  case step =>
    rw [hstep, bulkStore_of_le (by simpa using hle)]
    simp only [reg_inputs]
    rfl
  case value => exact getElem?_map_range_reg s k start hi
  case none => rw [hstep, bulkStore_of_lt (by simpa using hlt)]

/-! ## One access of the host (R102) -/

theorem hostAccess_read_of_lt {s : State} {k : RegKind} {i : Nat} (h : i < s.hostSize k) :
    hostAccess (.read k i) s = .run (s.emit (.hostValue k i (s.reg k i))) := if_pos h

theorem hostAccess_write_of_lt {s : State} {k : RegKind} {i : Nat} (v : Word) (h : i < s.hostSize k) :
    hostAccess (.write k i v) s = .run (s.setReg k i v) := if_pos h

theorem hostAccess_read_of_le {s : State} {k : RegKind} {i : Nat} (h : s.hostSize k ≤ i) :
    hostAccess (.read k i) s = .stop (.hostIndexOutOfRange k i) := if_neg (Nat.not_lt.mpr h)

theorem hostAccess_write_of_le {s : State} {k : RegKind} {i : Nat} (v : Word) (h : s.hostSize k ≤ i) :
    hostAccess (.write k i v) s = .stop (.hostIndexOutOfRange k i) := if_neg (Nat.not_lt.mpr h)

/-- Taking an event from the queue leaves the host's storage its size. -/
@[simp] theorem hostSize_inputs (s : State) (es : List Event) (k : RegKind) :
    ({ s with inputs := es } : State).hostSize k = s.hostSize k := by
  cases k <;> rfl

/-- Settles O38: the access is one of the two host accesses, inside the host's storage or outside it. -/
theorem hostAccessReachesOneRegister : Obligations.HostAccessReachesOneRegister := by
  unfold Obligations.HostAccessReachesOneRegister
  intro s k i v es hp size
  have hsize : size = s.hostSize k := rfl
  refine ⟨fun hin hlt => ?read,
    fun hin hlt => ⟨({ s with inputs := es } : State).setReg k i v, ?write, ?same, ?other, setReg_eq _ _ _ _⟩, ?outside⟩
  case read =>
    rw [step_event hp hin, handle, hostAccess_read_of_lt (by simpa [hsize] using hlt), reg_inputs]
    rfl
  case write =>
    rw [step_event hp hin, handle, hostAccess_write_of_lt v (by simpa [hsize] using hlt)]
    rfl
  case same => exact reg_setReg_same _ k i v
  case other => exact fun k' j hj => (reg_setReg_other _ k k' i j v hj).trans (reg_inputs s es k' j)
  case outside =>
    rintro (hin | hin) hle
    · rw [step_event hp hin, handle, hostAccess_read_of_le (by simpa [hsize] using hle)]
      rfl
    · rw [step_event hp hin, handle, hostAccess_write_of_le v (by simpa [hsize] using hle)]
      rfl

end Sys2Proof.Machine
end

section
/-! PROOFS. The frame synchronizer in `Accumulating` (spec/43_frame_synchronizer.md R110 to R113, R118): a byte and a poll in time and
late, and the run of a timely stream of bytes and polls. -/

namespace Sys2Proof.Machine

/-! ## The receive buffer (R25) -/

/-- Byte `i` of the buffer is replaced and no other. -/
theorem bytes_set {i : Nat} (f : Frame) (b : Byte) (h : i < 8) : (f.set i b).bytes = f.bytes.set i b := by
  interval_cases i <;> rfl

/-- Settles O12: `bytes_set`, index by index. -/
theorem receiveBufferWritesOneByte : Obligations.ReceiveBufferWritesOneByte := by
  unfold Obligations.ReceiveBufferWritesOneByte
  exact fun f i b h => bytes_set f b h

@[simp] theorem bytes_length (f : Frame) : f.bytes.length = 8 := rfl

/-- Writing byte `i` makes the first `i+1` bytes the first `i` and the new one. -/
theorem take_bytes_set {i : Nat} (f : Frame) (b : Byte) (h : i < 8) :
    (f.set i b).bytes.take (i + 1) = f.bytes.take i ++ [b] := by
  rw [bytes_set f b h, List.take_succ_eq_append_getElem (by simpa using h), List.take_set_of_le (Nat.le_refl i)]
  simp

/-! ## A byte and a poll, in time and late (R108, R110, R113) -/

section
variable {s : State} {now : Nat} (hc : s.configured = true) (ha : s.syncState = .accumulating)
include hc ha

theorem rxByte_of_timely (b : Byte) (h : elapsed s.tw now s.lastActivity < s.timeout) :
    rxByte b now s = .next (nextByte b now s) := by
  simp [rxByte, State.timedOut, hc, ha, h]

theorem rxByte_of_late (b : Byte) (h : s.timeout ≤ elapsed s.tw now s.lastActivity) :
    rxByte b now s = .next (firstByte b now (discardPending s)) := by
  simp [rxByte, State.timedOut, hc, ha, h]

theorem poll_of_timely (h : elapsed s.tw now s.lastActivity < s.timeout) :
    poll now s = .next (s.report Result.idleResult) := by
  simp [poll, State.timedOut, hc, ha, h]

theorem poll_of_late (h : s.timeout ≤ elapsed s.tw now s.lastActivity) :
    poll now s = .next ({ discardPending s with lastActivity := s.time now }.report Result.idleResult) := by
  simp [poll, State.timedOut, hc, ha, h]

end

theorem step_event_of_accumulating {s : State} {e : Event} {es : List Event} (ha : s.syncState = .accumulating)
    (hin : s.inputs = e :: es) : step s = handle e { s with inputs := es } :=
  step_event (processEnabled_of_ne_frameReady (by simp [ha])) hin

/-- R111: the eighth byte makes the frame ready and reports nothing. -/
theorem nextByte_eighth {s : State} (b : Byte) (now : Nat) (h : s.pendingLen = 7) :
    nextByte b now s = { s with
      rx := s.rx.set 7 b, pendingLen := 8, lastActivity := s.time now, syncState := .frameReady } := by
  simp [nextByte, h]

/-- R110: a byte before the eighth is appended, and `(Idle, 0)` reported. -/
theorem nextByte_earlier {s : State} (b : Byte) (now : Nat) (h : s.pendingLen < 7) :
    nextByte b now s = ({ s with
      rx := s.rx.set s.pendingLen b, pendingLen := s.pendingLen + 1, lastActivity := s.time now
      syncState := .accumulating } : State).report Result.idleResult := by
  rw [nextByte, if_neg (show ¬s.pendingLen + 1 = 8 by omega)]

/-- Settles O11: a byte in time is `nextByte`, the eighth or an earlier one. -/
theorem timelyByteIsAppended : Obligations.TimelyByteIsAppended := by
  unfold Obligations.TimelyByteIsAppended
  intro s b now es hin hc ha hnow ht
  have hstep : step s = .next (nextByte b now { s with inputs := es }) :=
    (step_event_of_accumulating ha hin).trans (rxByte_of_timely (s := { s with inputs := es }) hc ha b ht)
  have htime : ({ s with inputs := es } : State).time now = now := time_of_lt hnow
  refine ⟨fun h => ?eighth, fun h => ?earlier⟩
  case eighth =>
    rw [hstep, nextByte_eighth (s := { s with inputs := es }) b now h, htime]
    rfl
  case earlier =>
    rw [hstep, nextByte_earlier (s := { s with inputs := es }) b now h, htime, ← ha]
    rfl

/-- Settles O13: a late byte is the first byte of a new frame, on the state whose bytes are discarded. -/
theorem lateByteStartsANewFrame : Obligations.LateByteStartsANewFrame := by
  unfold Obligations.LateByteStartsANewFrame
  intro s b now es hin hc ha hnow ht
  calc step s
    _ = rxByte b now { s with inputs := es } := step_event_of_accumulating ha hin
    _ = .next (firstByte b now (discardPending { s with inputs := es })) :=
      rxByte_of_late (s := { s with inputs := es }) hc ha b ht
    _ = _ := congrArg _ (firstByte_eq (s := discardPending { s with inputs := es }) b hnow)
    _ = _ := by rw [← ha]; rfl

/-- Settles O15: the poll is late or in time. -/
theorem pollFiresTheTimeout : Obligations.PollFiresTheTimeout := by
  unfold Obligations.PollFiresTheTimeout
  intro s now es hin hc ha hnow
  have hstep : step s = poll now { s with inputs := es } := step_event_of_accumulating ha hin
  refine ⟨fun ht => ?late, fun ht => ?timely⟩
  case late =>
    rw [hstep, poll_of_late (s := { s with inputs := es }) hc ha ht, time_of_lt (s := { s with inputs := es }) hnow]
    rfl
  case timely =>
    rw [hstep, poll_of_timely (s := { s with inputs := es }) hc ha ht]
    rfl

/-! ## A timely stream (R118 (a)) -/

/-- `t` is `s` with the bytes `bs` appended to its frame, which is not complete yet. -/
structure Collects (s : State) (bs : List Byte) (t : State) : Prop where
  configured : t.configured = true
  syncState : t.syncState = .accumulating
  pendingLen : t.pendingLen = s.pendingLen + bs.length
  bytes : t.rx.bytes.take t.pendingLen = s.rx.bytes.take s.pendingLen ++ bs
  timeout : t.timeout = s.timeout
  tw : t.tw = s.tw
  hr : t.hr = s.hr
  ir : t.ir = s.ir
  frames : t.out.filter Output.isTxFrame = s.out.filter Output.isTxFrame

theorem Collects.refl {s : State} (hc : s.configured = true) (ha : s.syncState = .accumulating) : Collects s [] s :=
  ⟨hc, ha, rfl, by simp, rfl, rfl, rfl, rfl, rfl⟩

theorem Collects.trans {s t u : State} {bs cs : List Byte} (h : Collects s bs t) (h' : Collects t cs u) :
    Collects s (bs ++ cs) u where
  configured := h'.configured
  syncState := h'.syncState
  pendingLen := by rw [h'.pendingLen, h.pendingLen, List.length_append, Nat.add_assoc]
  bytes := by rw [h'.bytes, h.bytes, List.append_assoc]
  timeout := h'.timeout.trans h.timeout
  tw := h'.tw.trans h.tw
  hr := h'.hr.trans h.hr
  ir := h'.ir.trans h.ir
  frames := h'.frames.trans h.frames

theorem arrivals_cons (e : Event) (es : List Event) : arrivals (e :: es) = arrivals [e] ++ arrivals es := by
  cases e <;> rfl

/-- One event of a timely stream, before the eighth byte. -/
theorem step_timely {s : State} {e : Event} {es fs : List Event} (hc : s.configured = true) (ha : s.syncState = .accumulating)
    (hin : s.inputs = e :: fs) (ht : Timely s.tw s.timeout s.lastActivity (e :: es))
    (hlen : s.pendingLen + (arrivals [e]).length ≤ 7) :
    ∃ t, step s = .next t ∧ Collects s (arrivals [e]) t ∧ t.inputs = fs ∧ Timely t.tw t.timeout t.lastActivity es := by
  cases e with
  | rxByte b now =>
    obtain ⟨hnow, htimely⟩ := ht
    have hlt : s.pendingLen < 7 := by simpa [arrivals] using hlen
    have hstep : step s = .next (nextByte b now { s with inputs := fs }) :=
      (step_event_of_accumulating ha hin).trans (rxByte_of_timely (s := { s with inputs := fs }) hc ha b hnow)
    rw [nextByte_earlier (s := { s with inputs := fs }) b now hlt] at hstep
    exact ⟨_, hstep,
      ⟨hc, rfl, rfl, take_bytes_set s.rx b (Nat.lt_succ_of_lt hlt), rfl, rfl, rfl, rfl, by simp [Output.isTxFrame]⟩, rfl, htimely⟩
  | poll now =>
    obtain ⟨hnow, htimely⟩ := ht
    have hstep : step s = .next (({ s with inputs := fs } : State).report Result.idleResult) :=
      (step_event_of_accumulating ha hin).trans (poll_of_timely (s := { s with inputs := fs }) hc ha hnow)
    exact ⟨_, hstep, ⟨hc, ha, rfl, by simp [arrivals], rfl, rfl, rfl, rfl, by simp [Output.isTxFrame]⟩, rfl, htimely⟩
  | _ => exact ht.elim

/-- The run of a timely stream, before the eighth byte: its bytes are collected, and what follows is still in time. -/
theorem run_timely {s : State} {es fs rest : List Event} (hc : s.configured = true) (ha : s.syncState = .accumulating)
    (hin : s.inputs = es ++ rest) (ht : Timely s.tw s.timeout s.lastActivity (es ++ fs))
    (hlen : s.pendingLen + (arrivals es).length ≤ 7) (n : Nat) :
    ∃ t, Host.Core.run core (es.length + n) s = Host.Core.run core n t ∧ Collects s (arrivals es) t ∧ t.inputs = rest ∧
      Timely t.tw t.timeout t.lastActivity fs := by
  induction es generalizing s with
  | nil => exact ⟨s, by simp, .refl hc ha, hin, ht⟩
  | cons e es ih =>
    rw [arrivals_cons, List.length_append] at hlen
    obtain ⟨m, hstep, hm, hinm, htm⟩ := step_timely (es := es ++ fs) hc ha hin ht (by omega)
    obtain ⟨t, hrun, hcol, hint, htt⟩ := ih hm.configured hm.syncState hinm htm (by rw [hm.pendingLen]; omega)
    refine ⟨t, ?_, arrivals_cons e es ▸ hm.trans hcol, hint, htt⟩
    rw [List.length_cons, Nat.add_right_comm, run_step _ _ _ hstep, hrun]

/-- Settles O18: the first byte starts a frame, `run_timely` collects the next six, and the eighth makes the frame ready. -/
theorem timelyBytesAssembleOneFrame : Obligations.TimelyBytesAssembleOneFrame := by
  unfold Obligations.TimelyBytesAssembleOneFrame
  intro s b0 b7 t0 t7 es rest hc hi hin ht hlen
  have hfirst : step s = .next (firstByte b0 t0 { s with inputs := es ++ .rxByte b7 t7 :: rest }) :=
    (step_event_of_idle hi hin).trans (rxByte_of_idle b0 t0 hc hi)
  obtain ⟨m, hrun, hm, hinm, htm⟩ := run_timely (s := firstByte b0 t0 { s with inputs := es ++ .rxByte b7 t7 :: rest })
    (es := es) (fs := [.rxByte b7 t7]) hc rfl rfl ht (by rw [hlen]; rfl) 1
  have hseven : m.pendingLen = 7 := by rw [hm.pendingLen, hlen]; rfl
  have hlast : step m = .next (nextByte b7 t7 { m with inputs := rest }) :=
    (step_event_of_accumulating hm.syncState hinm).trans
      (rxByte_of_timely (s := { m with inputs := rest }) hm.configured hm.syncState b7 htm.1)
  rw [nextByte_eighth (s := { m with inputs := rest }) b7 t7 hseven] at hlast
  have hbytes : (m.rx.set 7 b7).bytes = b0 :: arrivals es ++ [b7] := by
    have htake := take_bytes_set m.rx b7 (i := 7) (by omega)
    rw [← hseven, hm.bytes] at htake
    rw [hseven, List.take_of_length_le (by simp)] at htake
    rw [htake]
    rfl
  have htime : ({ m with inputs := rest } : State).time t7 = t7 % 2 ^ s.tw := by rw [State.time, hm.tw]; rfl
  rw [htime] at hlast
  refine ⟨{ m with
      inputs := rest, rx := m.rx.set 7 b7, pendingLen := 8, lastActivity := t7 % 2 ^ s.tw, syncState := .frameReady },
    ?run, rfl, rfl, hbytes, rfl, rfl, hm.hr, hm.ir, ?frames⟩
  case run =>
    rw [run_step _ _ _ hfirst, hrun, run_step _ _ _ hlast]
    rfl
  case frames =>
    refine hm.frames.trans ?_
    simp [Output.isTxFrame]

end Sys2Proof.Machine
end

section
/-! PROOFS. The four requests with no host activity inside (spec/44_request_dispatcher.md R123 to R127; the premise of 20_memory.md
R51), and the two reads as one request with a register kind. -/

namespace Sys2Proof.Machine

/-! ## Which meaning a request has (R122, R156, R157) -/

/-- The read request of a register kind: `RHR` or `RIR`. -/
def readRequest : RegKind → Byte → Word → Word → Instr
  | .holding, addr, start, count => .rhr addr start count
  | .input, addr, start, count => .rir addr start count

@[simp] theorem readRequest_addr (k : RegKind) (addr : Byte) (start count : Word) :
    (readRequest k addr start count).addr = addr := by cases k <;> rfl

theorem refusalCode_readRequest (s : State) (k : RegKind) (addr : Byte) (start count : Word) :
    s.refusalCode (readRequest k addr start count) =
      if s.size k < start.toNat + count.toNat ∨ s.maxReadCount < count.toNat then some illegalDataAddress else none := by
  cases k <;> rfl

theorem refusalCode_wsr (s : State) (addr : Byte) (a v : Word) :
    s.refusalCode (.wsr addr a v) = if s.holdingCount < a.toNat + 1 then some illegalDataAddress else none := rfl

/-- The transaction that a request is (R122), before it becomes the outcome of a step. -/
def transaction (i : Instr) (s : State) : Txn :=
  match i with
  | .rhr addr start count => readRegs .holding addr 0x03 start count (s.latch (.rhr addr start count))
  | .rir addr start count => readRegs .input addr 0x04 start count (s.latch (.rir addr start count))
  | .wsr addr a v => writeReg (.wsr addr a v) (s.latch (.wsr addr a v))
  | .illfn addr fc a b => raiseException addr fc illegalFunction (s.latch (.illfn addr fc a b))

theorem exec_eq_outcome (i : Instr) (s : State) : exec i s = (transaction i s).outcome := by cases i <;> rfl

theorem transaction_readRequest (s : State) (k : RegKind) (addr : Byte) (start count : Word) :
    transaction (readRequest k addr start count) s =
      readRegs k addr (readRequest k addr start count).functionCode start count
        (s.latch (readRequest k addr start count)) := by
  cases k <;> rfl

/-- Both checks of R123 at once. -/
theorem readRegs_of_lt {s : State} {k : RegKind} {addr fc : Byte} {start count : Word}
    (h : s.size k < start.toNat + count.toNat ∨ s.maxReadCount < count.toNat) :
    readRegs k addr fc start count s = raiseException addr fc illegalDataAddress s :=
  if_neg (by simp; omega)

theorem writeReg_of_lt {s : State} {i : Instr} (h : s.holdingCount < i.fieldA.toNat + 1) :
    writeReg i s = raiseException i.addr i.functionCode illegalDataAddress s :=
  if_neg fun hin => Nat.not_le.mpr h ((inRange_iff s .holding i.fieldA.toNat 1).mp hin)

/-- R126 for a register inside the array: observer, commit, echo, with a point before each of the first two. -/
theorem writeReg_of_le {s : State} {i : Instr} (h : i.fieldA.toNat + 1 ≤ s.holdingCount) :
    writeReg i s = (atGap s).andThen fun s => (atGap (preWriteHook i s)).andThen fun s =>
      respond (Result.writtenResult i.fieldB) (((s.setReg .holding i.fieldA.toNat i.fieldB).txWrite 0 i.body).setTxLen 6) :=
  if_pos ((inRange_iff s .holding i.fieldA.toNat 1).mpr h)

/-- Every refusal is the one exception response, with the code of R156 and R157. -/
theorem transaction_refused {s : State} {i : Instr} {code : Byte} (h : s.refusalCode i = some code) :
    transaction i s = raiseException i.addr i.functionCode code (s.latch i) := by
  have read : ∀ k addr start count, s.refusalCode (readRequest k addr start count) = some code →
      transaction (readRequest k addr start count) s =
        raiseException addr (readRequest k addr start count).functionCode code (s.latch (readRequest k addr start count)) := by
    intro k addr start count h
    rw [refusalCode_readRequest, Option.ite_none_right_eq_some] at h
    obtain ⟨hlt, hcode⟩ := h
    obtain rfl := Option.some.inj hcode
    rw [transaction_readRequest, readRegs_of_lt (by simpa using hlt)]
  cases i with
  | rhr addr start count => exact read .holding addr start count h
  | rir addr start count => exact read .input addr start count h
  | wsr addr a v =>
    rw [refusalCode_wsr, Option.ite_none_right_eq_some] at h
    obtain ⟨hlt, hcode⟩ := h
    obtain rfl := Option.some.inj hcode
    exact writeReg_of_lt (i := .wsr addr a v) (s := s.latch (.wsr addr a v)) hlt
  | illfn addr fc a b =>
    obtain rfl : illegalFunction = code := Option.some.inj h
    rfl

/-! ## Whole next states, with no host activity inside -/

/-- R155 for every refused request: every field of the next state. -/
theorem exec_refused_quiet {s : State} {i : Instr} {code : Byte} (hq : s.quiet) (h : s.refusalCode i = some code) :
    exec i s = .next { s with
      reqFc := i.functionCode, reqFieldA := i.fieldA, reqFieldB := i.fieldB, reqKind := i.kind
      tx := withCrc (exceptionBody i.addr i.functionCode code) ++ s.tx.drop 5, txLen := 5
      crcAcc := crc16 (exceptionBody i.addr i.functionCode code), syncState := .idle, pendingLen := 0
      result := Result.noActionResult
      out := s.out ++
        [.txFrame (withCrc (exceptionBody i.addr i.functionCode code)), .result Result.noActionResult] } := by
  rw [exec_eq_outcome, transaction_refused h, raiseException_quiet (s.latch i) _ _ _ hq]
  rfl

theorem readBody_congr {s t : State} {k : RegKind} {a n : Nat} (h : ∀ i < n, t.reg k (a + i) = s.reg k (a + i)) (addr fc : Byte) :
    readBody t k addr fc a n = readBody s k addr fc a n := by
  have hpay : readPayload t k a n = readPayload s k a n :=
    List.flatMap_congr fun i hi => congrArg leBytes (h i (List.mem_range.mp hi))
  rw [readBody, readBody, hpay]

@[simp] theorem readBody_latch (s : State) (i : Instr) (k : RegKind) (addr fc : Byte) (a n : Nat) :
    readBody (s.latch i) k addr fc a n = readBody s k addr fc a n :=
  readBody_congr (fun _ _ => reg_congr rfl rfl _ _) addr fc

/-- R123 for a read of either kind that is served: every field of the next state. -/
theorem exec_readRequest_quiet {s : State} {k : RegKind} {addr : Byte} {start count : Word} (hq : s.quiet)
    (hr : start.toNat + count.toNat ≤ s.size k) (hm : count.toNat ≤ s.maxReadCount) :
    let i := readRequest k addr start count
    let body := readBody s k addr i.functionCode start.toNat count.toNat
    exec i s = .next { s with
      reqFc := i.functionCode, reqFieldA := i.fieldA, reqFieldB := i.fieldB, reqKind := i.kind
      tx := withCrc body ++ s.tx.drop (5 + 2 * count.toNat), txLen := 5 + 2 * count.toNat, crcAcc := crc16 body
      syncState := .idle, pendingLen := 0, result := Result.noActionResult
      out := s.out ++ (if s.readHookEn then [.readEvent body s.hookCtx] else []) ++
        [.txFrame (withCrc body), .result Result.noActionResult] } := by
  intro i body
  have h := readRegs_quiet k (s.latch i) addr i.functionCode start count hq (by simpa using hr) (by simpa using hm)
  rw [exec_eq_outcome, transaction_readRequest, h, readBody_latch]
  rfl

/-- The eight bytes of a request's frame are its body and their CRC (R60). -/
theorem encode_bytes (i : Instr) : (encode i).bytes = withCrc i.body := rfl

/-- R126 for a write that is served: every field of the next state. -/
theorem exec_wsr_quiet {s : State} {addr : Byte} {a v : Word} (hq : s.quiet) (hr : a.toNat + 1 ≤ s.holdingCount) :
    let i := Instr.wsr addr a v
    exec i s = .next { s with
      hr := (s.setReg .holding a.toNat v).hr, reqFc := 0x06, reqFieldA := a, reqFieldB := v, reqKind := .writeSingle
      tx := withCrc i.body ++ s.tx.drop 8, txLen := 8, crcAcc := crc16 i.body, syncState := .idle, pendingLen := 0
      result := Result.writtenResult v
      out := s.out ++ (if s.writeHookEn then [.preWriteEvent (withCrc i.body) s.hookCtx] else []) ++
        [.txFrame (withCrc i.body), .result (Result.writtenResult v)] } := by
  intro i
  rw [exec_eq_outcome, transaction, writeReg_of_le (i := i) (s := s.latch i) hr, atGap_quiet (s := s.latch i) hq, Txn.run_andThen,
    preWriteHook_eq, atGap_quiet (by exact hq), Txn.run_andThen,
    respond_quiet_body _ _ i.body (s.tx.drop 6) (by exact hq) (by simp [memWrite_zero, i, Instr.body]) rfl]
  rw [List.drop_drop, encode_bytes]
  rfl

/-! ## The statements -/

/-- Settles O39: `exec_readRequest_quiet` for the holding registers, and the exception response. -/
theorem readHoldingRegisters : Obligations.ReadHoldingRegisters := by
  unfold Obligations.ReadHoldingRegisters
  refine fun s addr start count hq => ⟨fun h => exec_readRequest_quiet (k := .holding) hq h.1 h.2, fun h => ?_⟩
  exact exec_refused_quiet (i := .rhr addr start count) hq (if_pos (by omega))

/-- Settles O40: `exec_readRequest_quiet` for the input registers, and the exception response. -/
theorem readInputRegisters : Obligations.ReadInputRegisters := by
  unfold Obligations.ReadInputRegisters
  refine fun s addr start count hq => ⟨fun h => exec_readRequest_quiet (k := .input) hq h.1 h.2, fun h => ?_⟩
  exact exec_refused_quiet (i := .rir addr start count) hq (if_pos (by omega))

/-- Settles O41: the one register written is the bank's write, every other field is in `exec_wsr_quiet`. -/
theorem writeSingleRegister : Obligations.WriteSingleRegister := by
  unfold Obligations.WriteSingleRegister
  refine fun s addr a v hq => ⟨fun h => ⟨_, exec_wsr_quiet hq h, ?same, fun k j hj => ?other, rfl⟩, fun h => ?refused⟩
  case same => exact (reg_congr rfl rfl .holding a.toNat).trans (reg_setReg_same s .holding a.toNat v)
  case other => exact (reg_congr rfl rfl k j).trans (reg_setReg_other s .holding k a.toNat j v hj)
  case refused => exact exec_refused_quiet (i := .wsr addr a v) hq (if_pos h)

/-- Settles O42: `ILLFN` is refused whatever its fields are. -/
theorem unknownFunctionIsRefused : Obligations.UnknownFunctionIsRefused := by
  unfold Obligations.UnknownFunctionIsRefused
  exact fun s addr fc a b hq => exec_refused_quiet (i := .illfn addr fc a b) hq rfl

/-- The response is what stands at the start of `TX`. -/
theorem response_of_tx {t : State} {bs rest : List Byte} (h : t.tx = bs ++ rest) (hl : t.txLen = bs.length) :
    t.response = bs := by
  simp [State.response, memRead, h, hl]

theorem withCrc_length (body : List Byte) : (withCrc body).length = body.length + 2 := by
  simp [withCrc]

/-- What a read of either kind sends, served or refused. -/
theorem exec_readRequest_response {s : State} (hq : s.quiet) (k : RegKind) (addr : Byte) (start count : Word) :
    let i := readRequest k addr start count
    ∃ t, exec i s = .next t ∧ t.response = withCrc (
      if start.toNat + count.toNat ≤ s.size k ∧ count.toNat ≤ s.maxReadCount then
        readBody s k addr i.functionCode start.toNat count.toNat
      else exceptionBody addr i.functionCode illegalDataAddress) := by
  intro i
  by_cases h : start.toNat + count.toNat ≤ s.size k ∧ count.toNat ≤ s.maxReadCount
  · refine ⟨_, exec_readRequest_quiet hq h.1 h.2, ?_⟩
    rw [if_pos h]
    exact response_of_tx rfl (by rw [withCrc_length, readBody_length, Nat.add_right_comm])
  · have hc : s.refusalCode i = some illegalDataAddress := by
      rw [refusalCode_readRequest, if_pos (by omega)]
    refine ⟨_, exec_refused_quiet hq hc, ?_⟩
    rw [if_neg h, show i.addr = addr from readRequest_addr k addr start count]
    exact response_of_tx rfl rfl

theorem readBody_one (s : State) (k : RegKind) (addr fc : Byte) (a : Nat) :
    readBody s k addr fc a 1 = [addr, fc, 2] ++ leBytes (s.reg k a) := by
  simp [readBody, readPayload]

/-- Settles O43: the read's body holds the register that the write has set, low byte first. -/
theorem writtenValueReadsBackSwapped : Obligations.WrittenValueReadsBackSwapped := by
  unfold Obligations.WrittenValueReadsBackSwapped
  intro s addr a v hq hr hm
  obtain ⟨t, ht, htq, htr, htm, hreg, hecho⟩ : ∃ t, exec (.wsr addr a v) s = .next t ∧ t.quiet ∧
      a.toNat + 1 ≤ t.holdingCount ∧ 1 ≤ t.maxReadCount ∧ t.reg .holding a.toNat = v ∧
      Output.txFrame (withCrc (Instr.wsr addr a v).body) ∈ t.out :=
    ⟨_, exec_wsr_quiet hq hr, hq, hr, hm, (reg_congr rfl rfl _ _).trans (reg_setReg_same s .holding a.toNat v), by simp⟩
  obtain ⟨u, hu, hresp⟩ := exec_readRequest_response htq .holding addr a 1
  refine ⟨t, u, ht, hu, hecho, ?_⟩
  rw [hresp, if_pos ⟨htr, htm⟩, show (1 : Word).toNat = 1 from rfl, readBody_one, hreg]
  rfl

/-- Two states that agree on what a read names send the same response. -/
theorem readRequest_response_congr {s s' : State} (k : RegKind) (addr : Byte) (start count : Word) (hq : s.quiet) (hq' : s'.quiet)
    (hm : s.maxReadCount = s'.maxReadCount) (hs : s.size k = s'.size k)
    (hreg : ∀ i < count.toNat, s.reg k (start.toNat + i) = s'.reg k (start.toNat + i)) :
    ∃ t t', exec (readRequest k addr start count) s = .next t ∧ exec (readRequest k addr start count) s' = .next t' ∧
      t.response = t'.response := by
  obtain ⟨t, ht, hresp⟩ := exec_readRequest_response hq k addr start count
  obtain ⟨t', ht', hresp'⟩ := exec_readRequest_response hq' k addr start count
  exact ⟨t, t', ht, ht', by rw [hresp, hresp', hm, hs, readBody_congr hreg]⟩

/-- Settles O44: both kinds are `readRequest_response_congr`. -/
theorem responseDependsOnNamedRegistersOnly : Obligations.ResponseDependsOnNamedRegistersOnly := by
  unfold Obligations.ResponseDependsOnNamedRegistersOnly
  exact fun s s' addr start count hq hq' hm =>
    ⟨readRequest_response_congr .holding addr start count hq hq' hm, readRequest_response_congr .input addr start count hq hq' hm⟩

end Sys2Proof.Machine
end

section
/-! PROOFS. The step that runs `Process` (spec/45_server_loop.md R141, R142): the point before its first action, the address test, and
the request that a verified frame decodes to. -/

namespace Sys2Proof.Machine

theorem process_of_run {s m : State} (h : atGap s = .run m) : process s = filterAndRun m := by rw [process, h]

theorem process_of_cut {s t : State} (h : atGap s = .cut t) : process s = .next t := by rw [process, h]

/-- R142: a frame for another address is dropped before it is verified. -/
theorem filterAndRun_of_foreign {s : State} (h : s.rx.b0 ≠ s.deviceAddr) : filterAndRun s = (dropFrame s).outcome := if_pos h

/-- A frame for this address that verifies is decoded and run (R68). -/
theorem filterAndRun_of_crc_eq {s : State} (ha : s.rx.b0 = s.deviceAddr) (h : s.rx.crcField = crc16 s.rx.body) :
    filterAndRun s = exec (decode s.rx) { s with crcAcc := crc16 s.rx.body, crcMatch := true } := by
  have hv : s.applyVerify = { s with crcAcc := crc16 s.rx.body, crcMatch := true } := by
    rw [applyVerify_eq, h, beq_self_eq_true]
  simp only [filterAndRun, ne_eq, ha, not_true_eq_false, if_false, hv, if_true]

/-- Settles O50: the host's activity before the first action leaves the frame and the address. -/
theorem stepRunsTheDecodedRequest : Obligations.StepRunsTheDecodedRequest := by
  unfold Obligations.StepRunsTheDecodedRequest
  intro s m hc hf hm ha hcrc
  obtain ⟨hcore, -⟩ := atGap_run hm
  rw [← hcore.rx] at ha hcrc ⊢
  rw [step_process hc hf, process_of_run hm, filterAndRun_of_crc_eq (ha.trans hcore.deviceAddr.symm) hcrc]

/-- A number of the opcode table decodes to a well-formed request. -/
theorem wf_of_decodeTableWord {w : Nat} {i : Instr} (h : decodeTableWord 64 w = some i) : i.wf = true := by
  obtain rfl : decode (Frame.ofTableWord (w % 2 ^ 64)) = i := Option.some.inj h
  exact decode_wf _

/-- The frame of a request carries the request's CRC. -/
theorem encode_crcField (i : Instr) : (encode i).crcField = crc16 i.body :=
  Laws.EncodedFrameVerifies.le16_lo8_hi8 (crc16 i.body)

/-- A placed request stands complete in a configured core with its address, and no host activity waits. -/
theorem placeRequest_fields (s : State) (i : Instr) :
    (placeRequest s i).configured = true ∧ (placeRequest s i).syncState = .frameReady ∧ (placeRequest s i).quiet ∧
      (placeRequest s i).rx = encode i ∧ (placeRequest s i).deviceAddr = i.addr := by
  refine ⟨?_, rfl, rfl, rfl, rfl⟩
  cases hc : s.configured <;> simp [placeRequest, hc]

/-- Settles O51: the placed frame is for this address and verifies, and decodes to the request it was made of. -/
theorem placedRequestRunsNext : Obligations.PlacedRequestRunsNext := by
  unfold Obligations.PlacedRequestRunsNext
  intro s w i h
  have hplace : s.withFetchWord 64 w = placeRequest s i := by rw [State.withFetchWord, placeTableWord, h]
  obtain ⟨hc, hf, hq, hrx, haddr⟩ := placeRequest_fields s i
  rw [hplace, step_process hc hf, process_quiet hq, filterAndRun_of_crc_eq (by rw [hrx, haddr]; rfl)
    (by rw [hrx]; exact encode_crcField i), hrx, decode_encode (wf_of_decodeTableWord h)]
  rfl

/-- Settles O52: the address test alone sends the frame to `Drop`. -/
theorem foreignFrameIsDropped : Obligations.ForeignFrameIsDropped := by
  unfold Obligations.ForeignFrameIsDropped
  intro s hc hf hq ha
  rw [step_process hc hf, process_quiet hq, filterAndRun_of_foreign ha, dropFrame_outcome_quiet hq]

end Sys2Proof.Machine
end

section
/-! PROOFS. What every transaction keeps (spec/45_server_loop.md R141; 20_memory.md R51). Each request begins in one of three ways and
ends in the shared `respond`; a predicate that survives the actions and the points between them survives the transaction. -/

namespace Sys2Proof.Machine

/-! ## What a transaction leaves, however it ends -/

/-- `P` holds of the state in which the transaction goes on, `Q` of the one that a `Reset` left, and it stops only if `R`. -/
def Txn.Meets (P Q : State → Prop) (R : Prop) : Txn → Prop
  | .run s => P s
  | .cut s => Q s
  | .stop _ => R

theorem Txn.meets_iff {P Q : State → Prop} {R : Prop} {t : Txn} :
    t.Meets P Q R ↔ (∀ s, t = .run s → P s) ∧ (∀ s, t = .cut s → Q s) ∧ ∀ r, t = .stop r → R := by
  cases t <;> simp [Txn.Meets]

theorem Txn.Meets.andThen {P P' Q : State → Prop} {R : Prop} {t : Txn} {f : State → Txn} (h : t.Meets P Q R)
    (hf : ∀ s, P s → (f s).Meets P' Q R) : (t.andThen f).Meets P' Q R := by
  cases t with
  | run s => exact hf s h
  | cut s => exact h
  | stop r => exact h

theorem Txn.Meets.weaken {P P' Q Q' : State → Prop} {R R' : Prop} {t : Txn} (h : t.Meets P Q R) (hP : ∀ s, P s → P' s)
    (hQ : ∀ s, Q s → Q' s) (hR : R → R') : t.Meets P' Q' R' := by
  cases t with
  | run s => exact hP s h
  | cut s => exact hQ s h
  | stop r => exact hR h

theorem Txn.Meets.and {P P' Q Q' : State → Prop} {R R' : Prop} {t : Txn} (h : t.Meets P Q R) (h' : t.Meets P' Q' R') :
    t.Meets (fun s => P s ∧ P' s) (fun s => Q s ∧ Q' s) (R ∧ R') := by
  cases t with
  | run s => exact ⟨h, h'⟩
  | cut s => exact ⟨h, h'⟩
  | stop r => exact ⟨h, h'⟩

/-- A next state is that of a transaction which ran to its end, or of one which a `Reset` cut. -/
theorem Txn.Meets.next {P Q : State → Prop} {R : Prop} {t : Txn} {u : State} (h : t.Meets P Q R) (hn : t.outcome = .next u) :
    P u ∨ Q u := by
  rcases Txn.outcome_next hn with rfl | rfl
  · exact .inl h
  · exact .inr h

theorem Txn.andThen_assoc (t : Txn) (f g : State → Txn) :
    (t.andThen f).andThen g = t.andThen fun s => (f s).andThen g := by
  cases t <;> rfl

/-! ## Predicates that survive the actions of a transaction -/

/-- `P` survives a point between two actions, what the core does to its response buffer, and an event for an observer; a `Reset` at a
point makes it `Q`, and a point stops the transaction only if `R`. -/
structure Stable (P Q : State → Prop) (R : Prop) : Prop where
  gap : ∀ {s}, P s → (atGap s).Meets P Q R
  buffer : ∀ {s} (tx : List Byte) (n : Nat) (crc : Word), P s → P { s with tx := tx, txLen := n, crcAcc := crc }
  event : ∀ {s} (o : Output), o.isTxFrame = false → P s → P (s.emit o)

/-- `P` also survives the end of every transaction (R141 steps 5 to 7): a frame sent, `Idle`, a result. -/
structure StableToEnd (P Q : State → Prop) (R : Prop) : Prop extends Stable P Q R where
  finish : ∀ {s} (y : SyncState) (n : Nat) (r : Result) (out : List Output),
    P s → P { s with syncState := y, pendingLen := n, result := r, out := out }

/-- What every transaction that runs to its end leaves: `Idle`, no byte pending (R141), and a result whose value is 0 unless it is a
written one (R24). -/
structure Ended (t : State) : Prop where
  syncState : t.syncState = .idle
  pendingLen : t.pendingLen = 0
  result : t.result.kind ≠ .written → t.result.value = 0

/-- At a point between two actions the core itself does nothing. -/
theorem atGap_sameCore (s : State) : (atGap s).Meets (SameCore s) (fun _ => True) True :=
  Txn.meets_iff.mpr ⟨fun _ h => (atGap_run h).1, fun _ _ => trivial, fun _ _ => trivial⟩

section
variable {P Q : State → Prop} {R : Prop}

theorem Stable.txWrite (hP : Stable P Q R) {s : State} (n : Nat) (bs : List Byte) (h : P s) : P (s.txWrite n bs) :=
  hP.buffer _ s.txLen s.crcAcc h

theorem Stable.setTxLen (hP : Stable P Q R) {s : State} (n : Nat) (h : P s) : P (s.setTxLen n) := hP.buffer s.tx n s.crcAcc h

theorem Stable.applyAppend (hP : Stable P Q R) {s : State} (h : P s) : P s.applyAppend := hP.buffer _ _ _ h

theorem Stable.readHook (hP : Stable P Q R) {s : State} (h : P s) : P (readHook s) := by
  unfold Machine.readHook
  split
  · exact hP.event _ rfl h
  · exact h

theorem Stable.preWriteHook (hP : Stable P Q R) (i : Instr) {s : State} (h : P s) : P (preWriteHook i s) := by
  unfold Machine.preWriteHook
  split
  · exact hP.event _ rfl h
  · exact h

theorem Stable.readLoop (hP : Stable P Q R) (k : RegKind) (a n i : Nat) {s : State} (h : P s) :
    (readLoop k a n i s).Meets P Q R := by
  induction n generalizing i s with
  | zero => exact h
  | succ n ih => exact (hP.gap h).andThen fun m hm => ih (i + 1) (hP.txWrite _ _ hm)

/-- The end of every transaction leaves `Idle` with no byte pending, and the result it reports. -/
theorem StableToEnd.conclude (hP : StableToEnd P Q R) {r : Result} (hr : r.kind ≠ .written → r.value = 0) {s : State} (h : P s) :
    (conclude r s).Meets (fun t => P t ∧ Ended t) Q R := by
  have hgap : (atGap s.toIdle).Meets P Q R := hP.gap (hP.finish .idle 0 s.result s.out h)
  refine Txn.Meets.andThen (P := fun m => P m ∧ SameCore s.toIdle m) ?_ fun m hm => ?_
  · exact (hgap.and (atGap_sameCore s.toIdle)).weaken (fun _ hm => hm) (fun _ hc => hc.1) fun hR => hR.1
  · exact ⟨hP.finish m.syncState m.pendingLen r _ hm.1, hm.2.syncState, hm.2.pendingLen, hr⟩

theorem StableToEnd.respond (hP : StableToEnd P Q R) {r : Result} (hr : r.kind ≠ .written → r.value = 0) {s : State} (h : P s) :
    (respond r s).Meets (fun t => P t ∧ Ended t) Q R :=
  (hP.gap (hP.applyAppend h)).andThen fun m hm =>
    (hP.gap (hP.finish m.syncState m.pendingLen m.result _ hm)).andThen fun _ hn => hP.conclude hr hn

end

/-! ## How each request begins -/

/-- A served read up to its response body, the observer included (R123, R131). -/
def prepareRead (k : RegKind) (addr fc : Byte) (a n : Nat) (s : State) : Txn :=
  (readLoop k a n 0 (s.txWrite 0 [addr, fc, BitVec.ofNat 8 (2 * n)])).andThen fun s =>
    (atGap (s.setTxLen (3 + 2 * n))).andThen fun s => .run (readHook s)

/-- A served write up to its response body: observer, commit, echo (R126). -/
def prepareWrite (i : Instr) (s : State) : Txn :=
  (atGap s).andThen fun s => (atGap (preWriteHook i s)).andThen fun s =>
    .run (((s.setReg .holding i.fieldA.toNat i.fieldB).txWrite 0 i.body).setTxLen 6)

/-- The body of an exception response (R155). -/
def prepareRefusal (i : Instr) (code : Byte) (s : State) : State :=
  (s.txWrite 0 (exceptionBody i.addr i.functionCode code)).setTxLen 3

/-- `Begins s i t r`: up to its response, the request `i` does `t` on the state `s`, and `r` is the result it will report. -/
inductive Begins (s : State) : Instr → Txn → Result → Prop
  | refused (i : Instr) (code : Byte) (h : s.refusalCode i = some code) :
    Begins s i (.run (prepareRefusal i code (s.latch i))) Result.noActionResult
  | read (k : RegKind) (addr : Byte) (start count : Word) (hr : start.toNat + count.toNat ≤ s.size k)
      (hm : count.toNat ≤ s.maxReadCount) :
    Begins s (readRequest k addr start count)
      (prepareRead k addr (readRequest k addr start count).functionCode start.toNat count.toNat
        (s.latch (readRequest k addr start count))) Result.noActionResult
  | write (addr : Byte) (a v : Word) (hr : a.toNat + 1 ≤ s.holdingCount) :
    Begins s (.wsr addr a v) (prepareWrite (.wsr addr a v) (s.latch (.wsr addr a v))) (Result.writtenResult v)

theorem readRegs_of_le {s : State} {k : RegKind} {addr fc : Byte} {start count : Word}
    (hr : start.toNat + count.toNat ≤ s.size k) (hm : count.toNat ≤ s.maxReadCount) :
    readRegs k addr fc start count s =
      (prepareRead k addr fc start.toNat count.toNat s).andThen (respond Result.noActionResult) := by
  have hcond : (s.inRange k start.toNat count.toNat && decide (count.toNat ≤ s.maxReadCount)) = true := by simp [hr, hm]
  simp only [prepareRead, Txn.andThen_assoc, Txn.run_andThen]
  exact if_pos hcond

theorem writeReg_eq_prepareWrite {s : State} {i : Instr} (h : i.fieldA.toNat + 1 ≤ s.holdingCount) :
    writeReg i s = (prepareWrite i s).andThen (respond (Result.writtenResult i.fieldB)) := by
  simp only [writeReg_of_le h, prepareWrite, Txn.andThen_assoc, Txn.run_andThen]

/-- Every request begins in one of three ways and ends in `respond` (R122, R141). -/
theorem exists_begins (s : State) (i : Instr) :
    ∃ t r, Begins s i t r ∧ transaction i s = t.andThen (respond r) := by
  have read : ∀ k addr start count, s.refusalCode (readRequest k addr start count) = none →
      ∃ t r, Begins s (readRequest k addr start count) t r ∧
        transaction (readRequest k addr start count) s = t.andThen (respond r) := by
    intro k addr start count h
    rw [refusalCode_readRequest, ite_eq_right_iff] at h
    have hle : ¬(s.size k < start.toNat + count.toNat ∨ s.maxReadCount < count.toNat) := fun hlt => by simp at h; omega
    exact ⟨_, _, .read k addr start count (by omega) (by omega),
      (transaction_readRequest s k addr start count).trans (readRegs_of_le (by simp; omega) (by simp; omega))⟩
  cases hc : s.refusalCode i with
  | some code => exact ⟨_, _, .refused i code hc, transaction_refused hc⟩
  | none =>
    cases i with
    | rhr addr start count => exact read .holding addr start count hc
    | rir addr start count => exact read .input addr start count hc
    | wsr addr a v =>
      rw [refusalCode_wsr, ite_eq_right_iff] at hc
      have hle : a.toNat + 1 ≤ s.holdingCount := Nat.le_of_not_lt fun hlt => by simp [hlt] at hc
      exact ⟨_, _, .write addr a v hle, writeReg_eq_prepareWrite (i := .wsr addr a v) (s := s.latch (.wsr addr a v)) hle⟩
    | illfn addr fc a b => cases hc

/-! ## What survives a request, and `Process` -/

section
variable {P Q : State → Prop} {R : Prop}

/-- What survives the actions survives the beginning of a request; a write must let it survive the commit. -/
theorem Stable.begins (hP : Stable P Q R) {s : State} {i : Instr} {t : Txn} {r : Result} (hb : Begins s i t r)
    (h : P (s.latch i)) (hw : ∀ addr a v, i = .wsr addr a v → ∀ m, P m → P (m.setReg .holding a.toNat v)) :
    t.Meets P Q R := by
  cases hb with
  | refused i code hc => exact hP.setTxLen 3 (hP.txWrite 0 _ h)
  | read k addr start count hr hm =>
    exact (hP.readLoop k start.toNat count.toNat 0 (hP.txWrite 0 _ h)).andThen fun m hm =>
      (hP.gap (hP.setTxLen _ hm)).andThen fun n hn => hP.readHook hn
  | write addr a v hr =>
    exact (hP.gap h).andThen fun m hm => (hP.gap (hP.preWriteHook _ hm)).andThen fun n hn =>
      hP.setTxLen 6 (hP.txWrite 0 _ (hw addr a v rfl n hn))

/-- A result that is not a written value is 0 (R24, R134). -/
theorem Begins.result_value {s : State} {i : Instr} {t : Txn} {r : Result} (hb : Begins s i t r) :
    r.kind ≠ .written → r.value = 0 := by
  cases hb with
  | refused => exact fun _ => rfl
  | read => exact fun _ => rfl
  | write => exact fun h => absurd rfl h

/-- What survives the actions and the end survives every request. -/
theorem StableToEnd.transaction (hP : StableToEnd P Q R) {s : State} {i : Instr} (h : P (s.latch i))
    (hw : ∀ addr a v, i = .wsr addr a v → ∀ m, P m → P (m.setReg .holding a.toNat v)) :
    (transaction i s).Meets (fun t => P t ∧ Ended t) Q R := by
  obtain ⟨t, r, hb, ht⟩ := exists_begins s i
  rw [ht]
  exact (hP.begins hb h hw).andThen fun m hm => hP.respond hb.result_value hm

end

/-- `Process` behind the point before its first action (R141 steps 1 and 2), before it becomes an outcome. -/
def filtered (s : State) : Txn :=
  if s.rx.b0 ≠ s.deviceAddr then dropFrame s
  else if s.applyVerify.crcMatch then transaction (decode s.rx) s.applyVerify else dropFrame s.applyVerify

theorem process_eq_outcome (s : State) : process s = ((atGap s).andThen filtered).outcome := by
  have hf : ∀ m, filterAndRun m = (filtered m).outcome := fun m => by
    simp only [filterAndRun, filtered, exec_eq_outcome, applyVerify_rx]
    split
    · rfl
    · split <;> rfl
  cases h : atGap s <;> simp [process, h, hf]

/-- What survives the actions, the verification and the latches survives `Process`, which ends in `Idle`. -/
theorem StableToEnd.process {P Q : State → Prop} {R : Prop} (hP : StableToEnd P Q R) {s : State} (h : P s)
    (hv : ∀ m, P m → P m.applyVerify) (hl : ∀ m i, P m → P (m.latch i))
    (hw : ∀ m (a v : Word), P m → P (m.setReg .holding a.toNat v)) :
    ((atGap s).andThen filtered).Meets (fun t => P t ∧ Ended t) Q R := by
  have hdrop : ∀ m, P m → (dropFrame m).Meets (fun t => P t ∧ Ended t) Q R := fun m hm => hP.conclude (fun _ => rfl) hm
  refine (hP.gap h).andThen fun m hm => ?_
  unfold filtered
  split
  · exact hdrop m hm
  · split
    · exact hP.transaction (hl _ _ (hv m hm)) fun _ a v _ n hn => hw n a v hn
    · exact hdrop _ (hv m hm)

end Sys2Proof.Machine
end

section
/-! PROOFS. The predicates that survive a transaction: what no action writes, the host's own premises, the frames on the wire, and a
register that nobody writes. -/

namespace Sys2Proof.Machine

theorem Stable.and {P Q P' Q' : State → Prop} {R R' : Prop} (h : Stable P Q R) (h' : Stable P' Q' R') :
    Stable (fun s => P s ∧ P' s) (fun s => Q s ∧ Q' s) (R ∧ R') where
  gap hs := (h.gap hs.1).and (h'.gap hs.2)
  buffer tx n c hs := ⟨h.buffer tx n c hs.1, h'.buffer tx n c hs.2⟩
  event o ho hs := ⟨h.event o ho hs.1, h'.event o ho hs.2⟩

theorem StableToEnd.and {P Q P' Q' : State → Prop} {R R' : Prop} (h : StableToEnd P Q R) (h' : StableToEnd P' Q' R') :
    StableToEnd (fun s => P s ∧ P' s) (fun s => Q s ∧ Q' s) (R ∧ R') where
  toStable := h.toStable.and h'.toStable
  finish y n r out hs := ⟨h.finish y n r out hs.1, h'.finish y n r out hs.2⟩

/-! ## What no action writes -/

/-- `t` differs from `s` at most in what a request writes behind its latches: the registers, the environment's fields, the response,
and the end of the transaction. -/
def SameRequest (s t : State) : Prop :=
  t = { s with
    hr := t.hr, ir := t.ir, gaps := t.gaps, out := t.out, tx := t.tx, txLen := t.txLen, crcAcc := t.crcAcc
    syncState := t.syncState, pendingLen := t.pendingLen, result := t.result }

theorem SameRequest.trans {s t u : State} (h : SameRequest s t) (h' : SameRequest t u) : SameRequest s u := by
  unfold SameRequest at *
  rw [h', h]

theorem SameCore.sameRequest {s t : State} (h : SameCore s t) : SameRequest s t := by
  unfold SameCore at h
  unfold SameRequest
  rw [h]

theorem sameRequest_setReg (s : State) (k : RegKind) (i : Nat) (v : Word) : SameRequest s (s.setReg k i v) :=
  (sameCore_setReg s k i v).sameRequest

/-- What depends on no field that a request writes survives; a `Reset` leaves the core reset on a state of which it held. -/
theorem stableToEnd_of_sameRequest {F : State → Prop} (hF : ∀ {s t}, SameRequest s t → F s → F t) :
    StableToEnd F (fun t => ∃ m, F m ∧ t = m.coreReset) True where
  gap h := Txn.meets_iff.mpr ⟨fun _ hm => hF (atGap_run hm).1.sameRequest h,
    fun _ hc => by
      obtain ⟨-, -, -, m, hm, -, -, rfl⟩ := atGap_cut hc
      exact ⟨m, hF hm.sameRequest h, rfl⟩,
    fun _ _ => trivial⟩
  buffer _ _ _ h := hF rfl h
  event _ _ h := hF rfl h
  finish _ _ _ _ h := hF rfl h

/-! ## The premises on the host (R51, R102, R170) -/

/-- Without a `Reset` inside, no point cuts the transaction. -/
theorem stableToEnd_noResets : StableToEnd State.noResets (fun _ => False) True where
  gap h := Txn.meets_iff.mpr ⟨fun _ hm => noResets_of_atGap h hm, fun t ht => atGap_noResets h t ht, fun _ _ => trivial⟩
  buffer _ _ _ h := h
  event _ _ h := h
  finish _ _ _ _ h := h

/-- Where the host stays inside its own storage, no point stops the transaction. -/
theorem stableToEnd_gapsInRange : StableToEnd State.gapsInRange (fun _ => True) False where
  gap h := Txn.meets_iff.mpr ⟨fun _ hm => gapsInRange_of_atGap h hm, fun _ _ => trivial, fun r hr => atGap_inRange h r hr⟩
  buffer _ _ _ h := gapsInRange_congr h rfl fun k => by cases k <;> rfl
  event _ _ h := gapsInRange_congr h rfl fun k => by cases k <;> rfl
  finish _ _ _ _ h := gapsInRange_congr h rfl fun k => by cases k <;> rfl

theorem gapsInRange_setReg {s : State} (h : s.gapsInRange) (k : RegKind) (i : Nat) (v : Word) : (s.setReg k i v).gapsInRange :=
  gapsInRange_congr h (setReg_gaps s k i v) fun k' => setReg_hostSize s k k' i v

theorem gapsInRange_latch {s : State} (h : s.gapsInRange) (i : Instr) : (s.latch i).gapsInRange :=
  gapsInRange_congr h rfl fun k => by cases k <;> rfl

/-- Every request runs to its end when no `Reset` falls inside and the host stays inside its own storage. -/
theorem transaction_runs {s : State} (i : Instr) (h : s.gapsInRange) (hn : s.noResets) : ∃ t, transaction i s = .run t := by
  have hm := (stableToEnd_gapsInRange.and stableToEnd_noResets).transaction (i := i) ⟨gapsInRange_latch h i, hn⟩
    fun _ a v _ m hm => ⟨gapsInRange_setReg hm.1 .holding a.toNat v, hm.2⟩
  cases ht : transaction i s with
  | run t => exact ⟨t, rfl⟩
  | cut t => rw [ht] at hm; exact hm.2.elim
  | stop r => rw [ht] at hm; exact hm.1.elim

/-- Every request answers a next state when the host stays inside its own storage (R128). -/
theorem exec_next {s : State} (i : Instr) (h : s.gapsInRange) : ∃ t, exec i s = .next t := by
  have hm := stableToEnd_gapsInRange.transaction (i := i) (gapsInRange_latch h i)
    fun _ a v _ m hm => gapsInRange_setReg hm .holding a.toNat v
  rw [exec_eq_outcome]
  cases ht : transaction i s with
  | run t => exact ⟨t, rfl⟩
  | cut t => exact ⟨t, rfl⟩
  | stop r => rw [ht] at hm; exact hm.elim

/-! ## Frames on the wire (R145) -/

/-- Up to the response no frame is put on the wire. -/
theorem stable_frames (fs : List Output) : Stable (fun m => m.out.filter Output.isTxFrame = fs) (fun _ => True) True where
  gap h := Txn.meets_iff.mpr ⟨fun m hm => by
      obtain ⟨os, ho, hos⟩ := atGap_out hm
      rw [ho, List.filter_append, hos.filter_isTxFrame, List.append_nil, h],
    fun _ _ => trivial, fun _ _ => trivial⟩
  buffer _ _ _ h := h
  event o ho h := by simpa [ho] using h

/-- A request that runs to its end sends exactly one frame and reports its result last (R141, R145, R148). -/
theorem transaction_run_out {s t : State} {i : Instr} (h : transaction i s = .run t) :
    (t.out.filter Output.isTxFrame).length = (s.out.filter Output.isTxFrame).length + 1 ∧
      t.out.getLast? = some (.result t.result) := by
  obtain ⟨b, r, hb, hbr⟩ := exists_begins s i
  obtain ⟨m, hm, hr⟩ := Txn.andThen_run (hbr.symm.trans h)
  have hframes := (stable_frames (s.out.filter Output.isTxFrame)).begins hb rfl fun _ _ _ _ _ hm => hm
  rw [hm] at hframes
  obtain ⟨⟨os, ps, qs, hout, hos, hps, hqs⟩, -, ht⟩ := respond_run hr
  have hres : t.result = r := by rw [ht]
  refine ⟨?_, by rw [hout, hres, List.getLast?_concat]⟩
  have hlen : (m.out.filter Output.isTxFrame).length = (s.out.filter Output.isTxFrame).length := congrArg List.length hframes
  simp only [hout, List.filter_append, List.length_append, hos.filter_isTxFrame, hps.filter_isTxFrame, hqs.filter_isTxFrame, hlen]
  rfl

/-! ## A register that nobody writes (R46, R97) -/

theorem valueAfter_of_not_mem {k : RegKind} {i : Nat} {as : List HostAccess} (h : ∀ v, HostAccess.write k i v ∉ as) (w : Word) :
    valueAfter k i as w = w := by
  induction as with
  | nil => rfl
  | cons a as ih =>
    have htail := ih fun v hv => h v (List.mem_cons_of_mem a hv)
    cases a with
    | read k' i' => exact htail
    | sample => exact htail
    | write k' i' v =>
      have hne : ¬(k' = k ∧ i' = i) := by
        rintro ⟨rfl, rfl⟩
        exact h v List.mem_cons_self
      simp only [valueAfter, hne, if_false, htail]

theorem regAfterGaps_of_not_hostWrites {s : State} {k : RegKind} {j : Nat} (h : ¬s.hostWrites k j) (n : Nat) :
    s.regAfterGaps k j n = s.reg k j := by
  refine valueAfter_of_not_mem (fun v hv => h ?_) _
  obtain ⟨g, hg, hmem⟩ := List.mem_flatMap.mp hv
  exact ⟨g, List.mem_of_mem_take hg, v, hmem⟩

theorem not_hostWrites_of_tail {s t : State} {k : RegKind} {j : Nat} (h : ¬s.hostWrites k j) (hg : t.gaps = s.gaps.tail) :
    ¬t.hostWrites k j := by
  rintro ⟨g, hmem, hv⟩
  exact h ⟨g, List.mem_of_mem_tail (hg ▸ hmem), hv⟩

/-- A register that the host does not write keeps its value, whether a `Reset` falls inside or not (R171). -/
theorem stableToEnd_reg (k : RegKind) (j : Nat) (v : Word) :
    StableToEnd (fun m => m.reg k j = v ∧ ¬m.hostWrites k j) (fun t => t.reg k j = v) True where
  gap {s} h := Txn.meets_iff.mpr ⟨fun m hm => by
      obtain ⟨-, hg, hr, -⟩ := atGap_run hm
      exact ⟨by rw [hr, regAfterGaps_of_not_hostWrites h.2, h.1], not_hostWrites_of_tail h.2 hg⟩,
    fun t ht => by
      obtain ⟨-, -, -, m, -, -, hr, rfl⟩ := atGap_cut ht
      exact (reg_congr rfl rfl k j).trans ((hr k j).trans ((regAfterGaps_of_not_hostWrites h.2 1).trans h.1)),
    fun _ _ => trivial⟩
  buffer _ _ _ h := ⟨(reg_congr rfl rfl k j).trans h.1, h.2⟩
  event _ _ h := ⟨(reg_congr rfl rfl k j).trans h.1, h.2⟩
  finish _ _ _ _ h := ⟨(reg_congr rfl rfl k j).trans h.1, h.2⟩

/-! ## The statements about every request -/

/-- Settles O45: the request answers a next state, and one that runs to its end has gone to `Idle`, sent one frame and reported. -/
theorem everyRequestCompletes : Obligations.EveryRequestCompletes := by
  unfold Obligations.EveryRequestCompletes
  intro i s h
  obtain ⟨u, hu⟩ := exec_next i h
  refine ⟨u, hu, fun hn => ?_⟩
  obtain ⟨t, ht⟩ := transaction_runs i h hn
  obtain rfl : t = u := by
    rw [exec_eq_outcome, ht] at hu
    exact Host.Outcome.next.inj hu
  have hend := stableToEnd_noResets.transaction (i := i) (s := s) hn fun _ _ _ _ _ hm => hm
  rw [ht] at hend
  exact ⟨hend.2.syncState, hend.2.pendingLen, transaction_run_out ht⟩

/-- Settles O46: the frame of a request is `SameRequest`, from the latched state on. -/
theorem requestsKeepControlState : Obligations.RequestsKeepControlState := by
  unfold Obligations.RequestsKeepControlState
  intro i s t hn h
  rw [exec_eq_outcome] at h
  have hstable : StableToEnd (SameRequest (s.latch i)) _ _ := stableToEnd_of_sameRequest fun h h' => h'.trans h
  have hend := (hstable.and stableToEnd_noResets).transaction (i := i) (s := s) ⟨rfl, hn⟩
    fun _ a v _ m hm => ⟨hm.1.trans (sameRequest_setReg m .holding a.toNat v), hm.2⟩
  rcases hend.next h with ⟨⟨hsame, -⟩, -⟩ | ⟨-, hcut⟩
  · rw [hsame]
    exact ⟨⟨rfl, rfl, rfl, rfl, rfl, rfl, rfl, rfl, rfl⟩, rfl, rfl, rfl, rfl, rfl, rfl, rfl, rfl, rfl, rfl⟩
  · exact hcut.elim

/-- Settles O47: the register survives the actions and the points, and a commit writes another one. -/
theorem requestsKeepOtherRegisters : Obligations.RequestsKeepOtherRegisters := by
  unfold Obligations.RequestsKeepOtherRegisters
  intro i s t k j h hw htarget
  rw [exec_eq_outcome] at h
  have hend := (stableToEnd_reg k j (s.reg k j)).transaction (i := i) ⟨reg_congr rfl rfl k j, hw⟩ fun addr a v hi m hm => by
    have hother : ¬(k = .holding ∧ j = a.toNat) := fun hkj => htarget ⟨hkj.1, addr, a, v, hi, hkj.2⟩
    exact ⟨(reg_setReg_other m .holding k a.toNat j v hother).trans hm.1, hm.2⟩
  exact (hend.next h).elim (fun hrun => hrun.1.1) id

/-! ## The response of a read, with the host active inside (R50, R51) -/

/-- The append of R83 makes the response the body and its CRC. -/
theorem applyAppend_response {s : State} (h : s.txLen ≤ s.tx.length) : s.applyAppend.response = withCrc s.response :=
  memRead_memWrite_behind s.tx s.txLen (leBytes (crc16 s.response)) h

/-- A served read that reaches its response has built the body, each register read at its own point. -/
theorem prepareRead_run {k : RegKind} {addr fc : Byte} {a n : Nat} {s m : State} (h : prepareRead k addr fc a n s = .run m) :
    m.txLen ≤ m.tx.length ∧ m.response = [addr, fc, BitVec.ofNat 8 (2 * n)] ++
      (List.range n).flatMap fun i => leBytes (s.regAfterGaps k (a + i) (i + 1)) := by
  obtain ⟨u, hu, h⟩ := Txn.andThen_run h
  obtain ⟨w, hw, h⟩ := Txn.andThen_run h
  obtain rfl : readHook w = m := Txn.run.inj h
  obtain ⟨-, -, -, hlen, hread⟩ := readLoop_run hu (by simp [memWrite])
  obtain ⟨hcore, -⟩ := atGap_run hw
  have hreg : ∀ j p, (s.txWrite 0 [addr, fc, BitVec.ofNat 8 (2 * n)]).regAfterGaps k j p = s.regAfterGaps k j p :=
    fun j p => congrArg (valueAfter k j _) (reg_congr rfl rfl k j)
  have htx : (readHook w).tx = u.tx := by rw [readHook_eq]; exact hcore.tx
  have htl : (readHook w).txLen = 3 + 2 * n := by rw [readHook_eq]; exact hcore.txLen
  rw [Nat.zero_add] at hlen hread
  refine ⟨by rw [htx, htl]; exact hlen, ?_⟩
  have hhead : memRead (s.txWrite 0 [addr, fc, BitVec.ofNat 8 (2 * n)]).tx 0 3 = [addr, fc, BitVec.ofNat 8 (2 * n)] :=
    memRead_memWrite_start s.tx [addr, fc, BitVec.ofNat 8 (2 * n)]
  rw [State.response, htx, htl, hread, Nat.mul_zero, Nat.add_zero, hhead]
  simp only [hreg, Nat.add_zero]

/-- A served read sends the body that `prepareRead_run` says. -/
theorem exec_readRequest_frame {s : State} (k : RegKind) (addr : Byte) (start count : Word) (h : s.gapsInRange) (hn : s.noResets)
    (hm : count.toNat ≤ s.maxReadCount) (hr : start.toNat + count.toNat ≤ s.size k) :
    ∃ t, exec (readRequest k addr start count) s = .next t ∧
      Output.txFrame (withCrc ([addr, (readRequest k addr start count).functionCode, BitVec.ofNat 8 (2 * count.toNat)] ++
        (List.range count.toNat).flatMap fun i => leBytes (s.regAfterGaps k (start.toNat + i) (i + 1)))) ∈ t.out := by
  obtain ⟨t, ht⟩ := transaction_runs (readRequest k addr start count) h hn
  refine ⟨t, by rw [exec_eq_outcome, ht]; rfl, ?_⟩
  rw [transaction_readRequest, readRegs_of_le (by simpa using hr) (by simpa using hm)] at ht
  obtain ⟨m, hpre, hresp⟩ := Txn.andThen_run ht
  obtain ⟨hlen, hbody⟩ := prepareRead_run hpre
  obtain ⟨⟨os, ps, qs, hout, -⟩, -⟩ := respond_run hresp
  have hreg : ∀ j n, (s.latch (readRequest k addr start count)).regAfterGaps k j n = s.regAfterGaps k j n :=
    fun j n => congrArg (valueAfter k j _) (reg_congr rfl rfl k j)
  simp only [hreg] at hbody
  rw [hout, applyAppend_response hlen, hbody]
  simp

/-- Settles O48: both kinds are `exec_readRequest_frame`. -/
theorem eachRegisterIsReadAtItsOwnPoint : Obligations.EachRegisterIsReadAtItsOwnPoint := by
  unfold Obligations.EachRegisterIsReadAtItsOwnPoint
  exact fun s addr start count h hn hm =>
    ⟨exec_readRequest_frame .holding addr start count h hn hm, exec_readRequest_frame .input addr start count h hn hm⟩

end Sys2Proof.Machine
end

section
/-! PROOFS. One step (spec/45_server_loop.md R140): what each event of the environment can do, and what every step keeps of the
synchronizer and of the configuration. -/

namespace Sys2Proof.Machine

/-! ## What each event can do -/

theorem rxByte_next {b : Byte} {now : Nat} {s t : State} (h : rxByte b now s = .next t) :
    s.configured = true ∧ (t = firstByte b now s ∨ t = firstByte b now (discardPending s) ∨
      (s.syncState = .accumulating ∧ t = nextByte b now s)) := by
  unfold rxByte at h
  split at h
  · rename_i hc
    refine ⟨hc, ?_⟩
    split at h
    · exact .inl (Host.Outcome.next.inj h).symm
    · rename_i ha
      split at h
      · exact .inr (.inl (Host.Outcome.next.inj h).symm)
      · exact .inr (.inr ⟨ha, (Host.Outcome.next.inj h).symm⟩)
    · cases h
  · cases h

theorem poll_next {now : Nat} {s t : State} (h : poll now s = .next t) :
    s.configured = true ∧ (t = s.report Result.idleResult ∨
      t = { discardPending s with lastActivity := s.time now }.report Result.idleResult) := by
  unfold poll at h
  split at h
  · rename_i hc
    refine ⟨hc, ?_⟩
    split at h
    · exact .inl (Host.Outcome.next.inj h).symm
    · split at h
      · exact .inr (Host.Outcome.next.inj h).symm
      · exact .inl (Host.Outcome.next.inj h).symm
    · cases h
  · cases h

theorem configure_next {c : Cfg} {s t : State} (h : configure c s = .next t) :
    s.configured = false ∧ ((c.wf s.tw = true ∧ t = (loadConfig c s).flagConfigured) ∨ t = s.flagCfgError) := by
  unfold configure at h
  split at h
  · cases h
  · rename_i hflags
    have hc : s.configured = false := by
      cases hc : s.configured
      · rfl
      · simp [hc] at hflags
    refine ⟨hc, ?_⟩
    split at h
    · rename_i hwf
      exact .inl ⟨hwf, (Host.Outcome.next.inj h).symm⟩
    · exact .inr (Host.Outcome.next.inj h).symm

theorem hostAccess_next {a : HostAccess} {s t : State} (h : (hostAccess a s).outcome = .next t) : hostAccess a s = .run t :=
  (Txn.outcome_next h).resolve_right (hostAccess_ne_cut a s t)

theorem whenSized_next {f : State → State} {s t : State} (h : whenSized f s = .next t) : s.configured = true ∧ t = f s := by
  unfold whenSized at h
  split at h
  · rename_i hc
    exact ⟨hc, (Host.Outcome.next.inj h).symm⟩
  · cases h

/-- A bulk operation of either kind is a load or an answer to the host, or nothing. -/
theorem bulkLoad_cases (k : RegKind) (start : Nat) (vs : List Word) (s : State) :
    (start + vs.length ≤ s.size k ∧ bulkLoad k start vs s = loadValues k start vs s) ∨ bulkLoad k start vs s = s := by
  rcases Nat.lt_or_ge (s.size k) (start + vs.length) with h | h
  · exact .inr (bulkLoad_of_lt h)
  · exact .inl ⟨h, bulkLoad_of_le h⟩

theorem bulkStore_cases (k : RegKind) (start n : Nat) (s : State) :
    (∃ vs, bulkStore k start n s = s.emit (.hostValues k start vs)) ∨ bulkStore k start n s = s := by
  rcases Nat.lt_or_ge (s.size k) (start + n) with h | h
  · exact .inr (bulkStore_of_lt h)
  · exact .inl ⟨_, bulkStore_of_le h⟩

/-- The host's own events leave the core as it is (R99 to R102): they reach the registers and the outputs alone. -/
theorem sameCore_bulkLoad (k : RegKind) (start : Nat) (vs : List Word) (s : State) : SameCore s (bulkLoad k start vs s) := by
  rcases bulkLoad_cases k start vs s with ⟨-, h⟩ | h
  · rw [h, loadValues_eq]; rfl
  · rw [h]; exact .refl s

theorem sameCore_bulkStore (k : RegKind) (start n : Nat) (s : State) : SameCore s (bulkStore k start n s) := by
  rcases bulkStore_cases k start n s with ⟨vs, h⟩ | h
  · rw [h]; rfl
  · rw [h]; exact .refl s

/-- Everything an event can do (R7): `Reset` and `Configure`, the synchronizer's two events, and the host's own. -/
theorem handle_next {e : Event} {s t : State} (h : handle e s = .next t) :
    (e = .reset ∧ t = s.coreReset) ∨ (∃ c, e = .configure c ∧ configure c s = .next t) ∨
      (∃ b now, rxByte b now s = .next t) ∨ (∃ now, poll now s = .next t) ∨ SameCore s t := by
  cases e with
  | reset => exact .inl ⟨rfl, (Host.Outcome.next.inj h).symm⟩
  | configure c => exact .inr (.inl ⟨c, rfl, h⟩)
  | rxByte b now => exact .inr (.inr (.inl ⟨b, now, h⟩))
  | poll now => exact .inr (.inr (.inr (.inl ⟨now, h⟩)))
  | hostRead k i => exact .inr (.inr (.inr (.inr (hostAccess_sameCore (hostAccess_next h)))))
  | hostWrite k i v => exact .inr (.inr (.inr (.inr (hostAccess_sameCore (hostAccess_next h)))))
  | bulkLoad k start vs => exact .inr (.inr (.inr (.inr ((whenSized_next h).2 ▸ sameCore_bulkLoad k start vs s))))
  | bulkStore k start n => exact .inr (.inr (.inr (.inr ((whenSized_next h).2 ▸ sameCore_bulkStore k start n s))))
  | hostSample => exact .inr (.inr (.inr (.inr (hostAccess_sameCore (hostAccess_next (a := .sample) h)))))

/-- Everything a step can do: `Process`, the oldest event, or nothing (R140, R168). -/
theorem step_next {s t : State} (h : step s = .next t) :
    (s.configured = true ∧ s.syncState = .frameReady ∧ ((atGap s).andThen filtered).outcome = .next t) ∨
      (s.processEnabled = false ∧ ∃ e es, s.inputs = e :: es ∧ handle e { s with inputs := es } = .next t) ∨ t = s := by
  by_cases hp : s.processEnabled = true
  · obtain ⟨hc, hf⟩ : s.configured = true ∧ s.syncState = .frameReady := by simpa [State.processEnabled] using hp
    exact .inl ⟨hc, hf, by rw [← process_eq_outcome, ← step_process hc hf, h]⟩
  · rw [Bool.not_eq_true] at hp
    cases hin : s.inputs with
    | nil => exact .inr (.inr (Host.Outcome.next.inj (h.symm.trans (step_of_no_input hp hin))))
    | cons e es => exact .inr (.inl ⟨hp, e, es, rfl, (step_event hp hin).symm.trans h⟩)

/-! ## `Process` (R114, R141, R161) -/

theorem step_of_frameReady {s t : State} (hc : s.configured = true) (hf : s.syncState = .frameReady) (h : step s = .next t) :
    ((atGap s).andThen filtered).outcome = .next t := by
  rw [← process_eq_outcome, ← step_process hc hf, h]

/-- Every path through `Process` ends in `Idle` with no byte pending, a cut one included. -/
theorem process_idle {s t : State} (h : ((atGap s).andThen filtered).outcome = .next t) : t.syncState = .idle ∧ t.pendingLen = 0 := by
  have hend := (stableToEnd_of_sameRequest (F := fun _ => True) fun _ h => h).process (s := s) trivial
    (fun _ _ => trivial) (fun _ _ _ => trivial) fun _ _ _ _ => trivial
  rcases hend.next h with ⟨-, hended⟩ | ⟨m, -, rfl⟩
  · exact ⟨hended.syncState, hended.pendingLen⟩
  · exact ⟨rfl, rfl⟩

/-- Settles O54: `process_idle`. -/
theorem processEndsInIdle : Obligations.ProcessEndsInIdle := by
  unfold Obligations.ProcessEndsInIdle
  exact fun s t hc hf h => process_idle (step_of_frameReady hc hf h)

/-- Settles O16: no action of `Process` takes an event, and a `Reset` inside leaves the queue. -/
theorem eventsWaitWhileAFrameIsReady : Obligations.EventsWaitWhileAFrameIsReady := by
  unfold Obligations.EventsWaitWhileAFrameIsReady
  intro s t hc hf h
  have hstable : StableToEnd (fun m => m.inputs = s.inputs) _ _ := stableToEnd_of_sameRequest fun hs hm => by rw [hs]; exact hm
  have hend := hstable.process (s := s) rfl (fun _ hm => hm) (fun _ _ hm => hm) fun _ _ _ hm => hm
  rcases hend.next (step_of_frameReady hc hf h) with ⟨hrun, -⟩ | ⟨m, hm, rfl⟩
  · exact hrun
  · exact hm

/-! ## The relation of `SYNC_STATE` and `PENDING_LEN` (R119) -/

theorem syncInv_of_idle {s : State} (hs : s.syncState = .idle) (hp : s.pendingLen = 0) : s.SyncInv :=
  ⟨by simp [hs, hp], by simp [hs, hp], by simp [hs, hp]⟩

theorem syncInv_of_accumulating {s : State} (hs : s.syncState = .accumulating) (h1 : 1 ≤ s.pendingLen) (h7 : s.pendingLen ≤ 7) :
    s.SyncInv :=
  ⟨by simp [hs]; omega, by simp [hs, h1, h7], by simp [hs]; omega⟩

theorem syncInv_of_frameReady {s : State} (hs : s.syncState = .frameReady) (hp : s.pendingLen = 8) : s.SyncInv :=
  ⟨by simp [hs, hp], by simp [hs, hp], by simp [hs, hp]⟩

theorem syncInv_congr {s t : State} (h : s.SyncInv) (hs : t.syncState = s.syncState) (hp : t.pendingLen = s.pendingLen) :
    t.SyncInv := by
  obtain ⟨hi, ha, hf⟩ := h
  exact ⟨by rw [hs, hp, hi], by rw [hs, hp, ha], by rw [hs, hp, hf]⟩

/-- A further byte is the eighth, or one of the second to the seventh (R110, R111). -/
theorem nextByte_syncInv {s : State} (b : Byte) (now : Nat) (h : s.SyncInv) (ha : s.syncState = .accumulating) :
    (nextByte b now s).SyncInv := by
  obtain ⟨h1, h7⟩ := h.accumulating_iff.mp ha
  by_cases h8 : s.pendingLen = 7
  · rw [nextByte_eighth b now h8]
    exact syncInv_of_frameReady rfl rfl
  · have hlt : s.pendingLen < 7 := by omega
    rw [nextByte_earlier b now hlt]
    exact syncInv_of_accumulating rfl (Nat.le_add_left 1 s.pendingLen) hlt

theorem rxByte_syncInv {b : Byte} {now : Nat} {s t : State} (h : s.SyncInv) (hn : rxByte b now s = .next t) : t.SyncInv := by
  obtain ⟨-, rfl | rfl | ⟨ha, rfl⟩⟩ := rxByte_next hn
  · exact syncInv_of_accumulating rfl (Nat.le_refl 1) (by simp)
  · exact syncInv_of_accumulating rfl (Nat.le_refl 1) (by simp)
  · exact nextByte_syncInv b now h ha

theorem poll_syncInv {now : Nat} {s t : State} (h : s.SyncInv) (hn : poll now s = .next t) : t.SyncInv := by
  obtain ⟨-, rfl | rfl⟩ := poll_next hn
  · exact syncInv_congr h rfl rfl
  · exact syncInv_of_idle rfl rfl

theorem configure_syncInv {c : Cfg} {s t : State} (h : s.SyncInv) (hn : configure c s = .next t) : t.SyncInv := by
  obtain ⟨-, ⟨-, rfl⟩ | rfl⟩ := configure_next hn
  · exact syncInv_congr h rfl rfl
  · exact syncInv_congr h rfl rfl

theorem handle_syncInv {e : Event} {s t : State} (h : s.SyncInv) (hn : handle e s = .next t) : t.SyncInv := by
  rcases handle_next hn with ⟨-, rfl⟩ | ⟨c, -, hc⟩ | ⟨b, now, hb⟩ | ⟨now, hp⟩ | hcore
  · exact syncInv_of_idle rfl rfl
  · exact configure_syncInv h hc
  · exact rxByte_syncInv h hb
  · exact poll_syncInv h hp
  · exact syncInv_congr h hcore.syncState hcore.pendingLen

theorem step_syncInv {s t : State} (h : s.SyncInv) (hn : step s = .next t) : t.SyncInv := by
  rcases step_next hn with ⟨-, -, hp⟩ | ⟨-, e, es, -, he⟩ | rfl
  · obtain ⟨hs, hl⟩ := process_idle hp
    exact syncInv_of_idle hs hl
  · exact handle_syncInv (syncInv_congr (t := { s with inputs := es }) h rfl rfl) he
  · exact h

/-- Settles O17: `Process` ends in `Idle`, and each event keeps the relation. -/
theorem stepKeepsSynchronizerRelation : Obligations.StepKeepsSynchronizerRelation := by
  unfold Obligations.StepKeepsSynchronizerRelation
  exact fun s t h hn => step_syncInv h hn

/-! ## The configuration (R175) -/

/-- `t` differs from `s` in no configuration register and in no flag of the configuration. -/
def SameSettings (s t : State) : Prop :=
  t = { s with
    hr := t.hr, ir := t.ir, syncState := t.syncState, pendingLen := t.pendingLen, lastActivity := t.lastActivity, rx := t.rx
    crcAcc := t.crcAcc, crcMatch := t.crcMatch, result := t.result, tx := t.tx, txLen := t.txLen, reqFc := t.reqFc
    reqFieldA := t.reqFieldA, reqFieldB := t.reqFieldB, reqKind := t.reqKind, inputs := t.inputs, gaps := t.gaps, out := t.out }

theorem SameSettings.trans {s t u : State} (h : SameSettings s t) (h' : SameSettings t u) : SameSettings s u := by
  unfold SameSettings at *
  rw [h', h]

theorem SameRequest.sameSettings {s t : State} (h : SameRequest s t) : SameSettings s t := by
  unfold SameRequest at h
  unfold SameSettings
  rw [h]

theorem SameCore.sameSettings {s t : State} (h : SameCore s t) : SameSettings s t := h.sameRequest.sameSettings

theorem SameSettings.sameConfig {s t : State} (h : SameSettings s t) : SameConfig s t := by
  rw [h]
  exact ⟨rfl, rfl, rfl, rfl, rfl, rfl, rfl, rfl, rfl⟩

theorem SameSettings.configured {s t : State} (h : SameSettings s t) : t.configured = s.configured := by rw [h]

theorem SameSettings.cfgError {s t : State} (h : SameSettings s t) : t.cfgError = s.cfgError := by rw [h]

theorem sameSettings_nextByte (b : Byte) (now : Nat) (s : State) : SameSettings s (nextByte b now s) := by
  unfold nextByte
  split <;> rfl

/-- Neither a byte nor a poll changes the configuration. -/
theorem rxByte_sameSettings {b : Byte} {now : Nat} {s t : State} (h : rxByte b now s = .next t) : SameSettings s t := by
  obtain ⟨-, rfl | rfl | ⟨-, rfl⟩⟩ := rxByte_next h
  · rfl
  · rfl
  · exact sameSettings_nextByte b now s

theorem poll_sameSettings {now : Nat} {s t : State} (h : poll now s = .next t) : SameSettings s t := by
  obtain ⟨-, rfl | rfl⟩ := poll_next h <;> rfl

/-- A configured core's event that is no `Reset` keeps the configuration: a second `Configure` is refused. -/
theorem handle_sameSettings {e : Event} {s t : State} (hc : s.configured = true) (he : e ≠ .reset) (h : handle e s = .next t) :
    SameSettings s t := by
  rcases handle_next h with ⟨rfl, -⟩ | ⟨c, -, hcfg⟩ | ⟨b, now, hb⟩ | ⟨now, hp⟩ | hcore
  · exact absurd rfl he
  · have hunconfigured := (configure_next hcfg).1
    simp [hc] at hunconfigured
  · exact rxByte_sameSettings hb
  · exact poll_sameSettings hp
  · exact hcore.sameSettings

/-- `Process` without a `Reset` inside keeps the configuration. -/
theorem process_sameSettings {s t : State} (hn : s.noResets) (h : ((atGap s).andThen filtered).outcome = .next t) :
    SameSettings s t := by
  have hstable : StableToEnd (SameSettings s) _ _ := stableToEnd_of_sameRequest fun hs hm => hm.trans hs.sameSettings
  have hend := (hstable.and stableToEnd_noResets).process (s := s) ⟨rfl, hn⟩ (fun m hm => ⟨hm.1.trans rfl, hm.2⟩)
    (fun m i hm => ⟨hm.1.trans rfl, hm.2⟩) fun m a v hm => ⟨hm.1.trans (sameCore_setReg m .holding a.toNat v).sameSettings, hm.2⟩
  rcases hend.next h with ⟨⟨hsame, -⟩, -⟩ | ⟨-, hcut⟩
  · exact hsame
  · exact hcut.elim

/-- Settles O8: `Process` and every event but `Reset` leave the settings. -/
theorem configurationConstantWhileRunning : Obligations.ConfigurationConstantWhileRunning := by
  unfold Obligations.ConfigurationConstantWhileRunning
  intro s t hc hn hreset h
  have hsame : SameSettings s t := by
    rcases step_next h with ⟨-, -, hp⟩ | ⟨hp, e, es, hin, he⟩ | rfl
    · exact process_sameSettings hn hp
    · have hne : e ≠ .reset := by
        rintro rfl
        rcases hreset with hf | hne
        · simp [State.processEnabled, hc, hf] at hp
        · exact hne es hin
      exact SameSettings.trans (t := { s with inputs := es }) rfl (handle_sameSettings hc hne he)
    · rfl
  exact ⟨hsame.sameConfig, hsame.configured.trans hc, hsame.cfgError⟩

end Sys2Proof.Machine
end

section
/-! PROOFS. The invariant of the machine (spec/10_state.md R15 to R26; 43_frame_synchronizer.md R119; 40_crc_engine.md R83): register
storage stays in canonical form, the response fits into `TX`, and every event and every path of `Process` keeps the rest. -/

namespace Sys2Proof.Machine

/-! ## Register storage (R19) -/

/-- Register storage is in canonical form, and the host has no index beyond a register address. -/
structure BankOk (s : State) : Prop where
  hr : Memory.wf s.hr.cells
  ir : Memory.wf s.ir.cells
  host : ∀ k, s.hostSize k ≤ Config.maxArraySize

theorem bankOk_congr {s t : State} (h : BankOk s) (hh : t.hr = s.hr) (hi : t.ir = s.ir) (hs : ∀ k, t.hostSize k = s.hostSize k) :
    BankOk t :=
  ⟨hh ▸ h.hr, hi ▸ h.ir, fun k => hs k ▸ h.host k⟩

theorem BankOk.setReg {s : State} (h : BankOk s) (k : RegKind) {i : Nat} (v : Word) (hi : i < Config.maxArraySize) :
    BankOk (s.setReg k i v) := by
  have hhost : ∀ k', (s.setReg k i v).hostSize k' ≤ Config.maxArraySize := fun k' => setReg_hostSize s k k' i v ▸ h.host k'
  cases k with
  | input => exact ⟨h.hr, Memory.write_wf s.ir.cells i v h.ir hi, hhost⟩
  | holding => exact ⟨Memory.write_wf s.hr.cells i v h.hr hi, h.ir, hhost⟩

theorem BankOk.loadValues {s : State} (h : BankOk s) (k : RegKind) {start : Nat} {vs : List Word}
    (hi : start + vs.length ≤ Config.maxArraySize) : BankOk (loadValues k start vs s) := by
  induction vs generalizing start s with
  | nil => exact h
  | cons v vs ih =>
    rw [List.length_cons] at hi
    exact ih (h.setReg k v (by omega)) (by omega)

/-- A host access that is admitted writes a register address. -/
theorem BankOk.hostAccess {s : State} (h : BankOk s) (a : HostAccess) {Q : State → Prop} : (hostAccess a s).Meets BankOk Q True := by
  cases a with
  | read k i =>
    rcases Nat.lt_or_ge i (s.hostSize k) with hi | hi
    · rw [hostAccess_read_of_lt hi]; exact bankOk_congr h rfl rfl fun k => by cases k <;> rfl
    · rw [hostAccess_read_of_le hi]; exact trivial
  | write k i v =>
    rcases Nat.lt_or_ge i (s.hostSize k) with hi | hi
    · rw [hostAccess_write_of_lt v hi]; exact h.setReg k v (Nat.lt_of_lt_of_le hi (h.host k))
    · rw [hostAccess_write_of_le v hi]; exact trivial
  | sample => exact bankOk_congr h rfl rfl fun k => by cases k <;> rfl

theorem BankOk.hostAccesses {s : State} (h : BankOk s) (as : List HostAccess) {Q : State → Prop} :
    (hostAccesses as s).Meets BankOk Q True := by
  induction as generalizing s with
  | nil => exact h
  | cons a as ih => exact (h.hostAccess a).andThen fun _ hm => ih hm

theorem BankOk.atGap {s : State} (h : BankOk s) :
    (atGap s).Meets BankOk (fun t => ∃ m, BankOk m ∧ t = m.coreReset) True := by
  unfold Machine.atGap
  split
  · exact h
  · rename_i g gs hg
    have hpop : BankOk { s with gaps := gs } := bankOk_congr h rfl rfl fun k => by cases k <;> rfl
    refine (hpop.hostAccesses g.accesses).andThen fun m hm => ?_
    · split
      · exact ⟨m, hm, rfl⟩
      · exact hm

theorem stableToEnd_bankOk : StableToEnd BankOk (fun t => ∃ m, BankOk m ∧ t = m.coreReset) True where
  gap h := h.atGap
  buffer _ _ _ h := bankOk_congr h rfl rfl fun k => by cases k <;> rfl
  event _ _ h := bankOk_congr h rfl rfl fun k => by cases k <;> rfl
  finish _ _ _ _ h := bankOk_congr h rfl rfl fun k => by cases k <;> rfl

theorem process_bankOk {s : State} (h : BankOk s) :
    ((atGap s).andThen filtered).Meets (fun t => BankOk t ∧ Ended t) (fun t => ∃ m, BankOk m ∧ t = m.coreReset) True :=
  stableToEnd_bankOk.process h (fun _ hm => bankOk_congr hm rfl rfl fun k => by cases k <;> rfl)
    (fun _ _ hm => bankOk_congr hm rfl rfl fun k => by cases k <;> rfl) fun _ a v hm => hm.setReg .holding v a.isLt

/-! ## The response buffer (R66, R83) -/

/-- The response of `t` ends inside a buffer that is as long as that of `s`, or as long as the response when that needs more. -/
def ReplyFits (s t : State) : Prop :=
  t.tx.length = max s.tx.length t.txLen ∧ t.txLen ≤ max 8 (5 + 2 * s.maxReadCount)

/-- The read loop makes the buffer as long as it needs it. -/
theorem readLoop_tx_length (k : RegKind) (a n i : Nat) {s : State} (h : 3 + 2 * i ≤ s.tx.length) :
    (readLoop k a n i s).Meets (fun m => m.tx.length = max s.tx.length (3 + 2 * (i + n))) (fun _ => True) True := by
  induction n generalizing i s with
  | zero => exact (Nat.max_eq_left h).symm
  | succ n ih =>
    refine (atGap_sameCore s).andThen fun m hm => ?_
    have hlen : (m.txWrite (3 + 2 * i) (leBytes (m.reg k (a + i)))).tx.length = max s.tx.length (3 + 2 * i + 2) := by
      rw [txWrite_tx, memWrite_length_max _ _ _ (by rw [hm.tx]; exact h), hm.tx, leBytes_length]
    refine (ih (i + 1) (by omega)).weaken (fun u hu => ?_) (fun _ h => h) id
    omega

/-- Up to its response every request leaves room for nothing but its body; the CRC will need two bytes more. -/
theorem Begins.tx_length {s : State} {i : Instr} {t : Txn} {r : Result} (hb : Begins s i t r) :
    t.Meets (fun m => m.tx.length = max s.tx.length m.txLen ∧ m.txLen + 2 ≤ max 8 (5 + 2 * s.maxReadCount)) (fun _ => True) True := by
  cases hb with
  | refused i code hc => exact ⟨memWrite_length_max _ _ _ (Nat.zero_le _), by simp [prepareRefusal]⟩
  | read k addr start count hr hm =>
    refine (readLoop_tx_length k start.toNat count.toNat 0 (by simp [memWrite])).andThen fun m hlen => ?_
    refine (atGap_sameCore _).andThen fun u hu => ?_
    have hhead : (memWrite s.tx 0 [addr, (readRequest k addr start count).functionCode, BitVec.ofNat 8 (2 * count.toNat)]).length =
        max s.tx.length 3 := memWrite_length_max _ _ _ (Nat.zero_le _)
    have htx : (readHook u).tx = m.tx := by rw [readHook_eq]; exact hu.tx
    have htl : (readHook u).txLen = 3 + 2 * count.toNat := by rw [readHook_eq]; exact hu.txLen
    rw [txWrite_tx, latch_tx, hhead] at hlen
    exact ⟨by rw [htx, htl, hlen]; omega, by rw [htl]; omega⟩
  | write addr a v hr =>
    refine (atGap_sameCore _).andThen fun m hm => ?_
    refine (atGap_sameCore _).andThen fun u hu => ?_
    have htx : u.tx = s.tx := by rw [hu.tx, preWriteHook_eq]; exact hm.tx
    have hset : (u.setReg .holding a.toNat v).tx = s.tx := htx
    exact ⟨(memWrite_length_max _ _ _ (Nat.zero_le _)).trans (congrArg (fun tx => max (List.length tx) 6) hset), Nat.le_max_left _ _⟩

theorem transaction_replyFits (i : Instr) (s : State) : (transaction i s).Meets (ReplyFits s) (fun _ => True) True := by
  obtain ⟨b, r, hb, ht⟩ := exists_begins s i
  rw [ht]
  refine hb.tx_length.andThen fun m ⟨hlen, hle⟩ => Txn.meets_iff.mpr ⟨fun t hr => ?_, fun _ _ => trivial, fun _ _ => trivial⟩
  obtain ⟨-, -, heq⟩ := respond_run hr
  have htl : t.txLen = m.txLen + 2 := by rw [heq]; rfl
  have htx : t.tx = memWrite m.tx m.txLen (leBytes (crc16 m.response)) := by rw [heq]; rfl
  refine ⟨?_, by rw [htl]; exact hle⟩
  rw [htx, htl, memWrite_length_max _ _ _ (by omega), leBytes_length]
  omega

theorem dropFrame_tx (s : State) : (dropFrame s).Meets (fun t => t.tx = s.tx ∧ t.txLen = s.txLen) (fun _ => True) True :=
  Txn.meets_iff.mpr ⟨fun t ht => by
      obtain ⟨-, -, heq⟩ := conclude_run ht
      exact ⟨by rw [heq], by rw [heq]⟩,
    fun _ _ => trivial, fun _ _ => trivial⟩

/-- `Process` leaves the buffer and its length alone when it drops the frame, and a response that fits when it runs a request. -/
theorem process_tx (s : State) : ((atGap s).andThen filtered).Meets
    (fun t => (t.tx = s.tx ∧ t.txLen = s.txLen) ∨ ReplyFits s t) (fun _ => True) True := by
  refine (atGap_sameCore s).andThen fun m hm => ?_
  unfold filtered
  split
  · exact (dropFrame_tx m).weaken (fun t ht => .inl ⟨ht.1.trans hm.tx, ht.2.trans hm.txLen⟩) (fun _ h => h) id
  · split
    · refine (transaction_replyFits _ _).weaken (fun t ht => .inr ?_) (fun _ h => h) id
      rw [ReplyFits, applyVerify_tx, applyVerify_maxReadCount, hm.tx, hm.maxReadCount] at ht
      exact ht
    · exact (dropFrame_tx _).weaken (fun t ht => .inl ⟨ht.1.trans hm.tx, ht.2.trans hm.txLen⟩) (fun _ h => h) id

/-! ## Reset and `Configure` -/

/-- Settles O19: the reset state is written out. -/
theorem resetMeetsTheInvariant : Obligations.ResetMeetsTheInvariant where
  sync := syncInv_of_idle rfl rfl
  lastActivity := Nat.two_pow_pos _
  cfg h := absurd h (by decide)
  unconfigured _ := ⟨rfl, rfl⟩
  txSize := .inl rfl
  txLen := Nat.zero_le _
  result _ := rfl
  hr := Memory.wf_nil
  ir := Memory.wf_nil

theorem inv_coreReset {s : State} (hh : Memory.wf s.hr.cells) (hi : Memory.wf s.ir.cells) : s.coreReset.Inv where
  sync := syncInv_of_idle rfl rfl
  lastActivity := Nat.two_pow_pos _
  cfg h := absurd h (by simp)
  unconfigured _ := ⟨rfl, rfl⟩
  txSize := .inl rfl
  txLen := Nat.zero_le _
  result _ := rfl
  hr := hh
  ir := hi

theorem wf_bindArray {f : RegFile} (h : Memory.wf f.cells) (a : Supply) : Memory.wf (bindArray f a).cells := by
  cases a with
  | missing => exact h
  | held => exact h
  | fresh => exact Memory.wf_nil

theorem inv_loadConfig {s : State} {c : Cfg} (h : s.Inv) (hc : s.configured = false) (hw : c.wf s.tw = true) :
    ((loadConfig c s).flagConfigured).Inv := by
  obtain ⟨hin, hho, -, -, hmax, htime, -, -⟩ := (cfg_wf_iff s.tw c).mp hw
  obtain ⟨-, htl⟩ := h.unconfigured hc
  exact {
    sync := syncInv_congr h.sync rfl rfl
    lastActivity := h.lastActivity
    cfg := fun _ => ⟨rfl, hin, hho, hmax, htime⟩
    unconfigured := fun hf => absurd hf (by simp)
    txSize := .inl (by simp)
    txLen := by simp [htl]
    result := h.result
    hr := wf_bindArray h.hr _
    ir := wf_bindArray h.ir _ }

theorem inv_flagCfgError {s : State} (h : s.Inv) (hc : s.configured = false) : s.flagCfgError.Inv where
  sync := syncInv_congr h.sync rfl rfl
  lastActivity := h.lastActivity
  cfg hf := absurd hf (by simp)
  unconfigured _ := h.unconfigured hc
  txSize := h.txSize
  txLen := h.txLen
  result := h.result
  hr := h.hr
  ir := h.ir

/-! ## The other events -/

theorem cfgInv_of_sameSettings {s t : State} (h : SameSettings s t) (hc : s.CfgInv) : t.CfgInv := by
  obtain ⟨he, hi, hh, hm, ht⟩ := hc
  rw [h]
  exact ⟨he, hi, hh, hm, ht⟩

/-- What the host does to its own registers keeps the invariant when storage stays in canonical form. -/
theorem inv_of_sameCore {s t : State} (h : s.Inv) (hs : SameCore s t) (hh : Memory.wf t.hr.cells) (hi : Memory.wf t.ir.cells) :
    t.Inv where
  sync := syncInv_congr h.sync hs.syncState hs.pendingLen
  lastActivity := by rw [hs.lastActivity, hs.tw]; exact h.lastActivity
  cfg hc := cfgInv_of_sameSettings hs.sameSettings (h.cfg (hs.configured ▸ hc))
  unconfigured hc := by rw [hs.syncState, hs.txLen]; exact h.unconfigured (hs.configured ▸ hc)
  txSize := by rw [hs.tx, hs.maxReadCount]; exact h.txSize
  txLen := by rw [hs.tx, hs.txLen]; exact h.txLen
  result := by rw [hs.result]; exact h.result
  hr := hh
  ir := hi

/-- What a byte or a poll does to the synchronizer keeps the invariant: the rest is the synchronizer's own relation and the time. -/
theorem inv_of_sync {s t : State} (h : s.Inv) (hc : s.configured = true) (hsync : t.SyncInv) (hlast : t.lastActivity < 2 ^ s.tw)
    (hres : t.result = Result.idleResult ∨ t.result = s.result)
    (ht : t = { s with
      syncState := t.syncState, pendingLen := t.pendingLen, lastActivity := t.lastActivity, rx := t.rx, result := t.result
      out := t.out }) : t.Inv := by
  have hset : SameSettings s t := by rw [ht]; rfl
  have htx : t.tx = s.tx := by rw [ht]
  have htl : t.txLen = s.txLen := by rw [ht]
  exact {
    sync := hsync
    lastActivity := by rw [ht]; exact hlast
    cfg := fun _ => cfgInv_of_sameSettings hset (h.cfg hc)
    unconfigured := fun hf => by rw [hset.configured, hc] at hf; cases hf
    txSize := by rw [htx, hset.sameConfig.maxReadCount]; exact h.txSize
    txLen := by rw [htx, htl]; exact h.txLen
    result := by
      rcases hres with hr | hr <;> rw [hr]
      · exact fun _ => rfl
      · exact h.result
    hr := by rw [ht]; exact h.hr
    ir := by rw [ht]; exact h.ir }

/-- A time as it is stored is one that the counter can show. -/
theorem time_lt (s : State) (now : Nat) : s.time now < 2 ^ s.tw := Nat.mod_lt _ (Nat.two_pow_pos _)

theorem inv_rxByte {b : Byte} {now : Nat} {s t : State} (h : s.Inv) (hn : rxByte b now s = .next t) : t.Inv := by
  have hsync := rxByte_syncInv h.sync hn
  obtain ⟨hc, rfl | rfl | ⟨ha, rfl⟩⟩ := rxByte_next hn
  · exact inv_of_sync h hc hsync (time_lt s now) (.inl rfl) rfl
  · exact inv_of_sync h hc hsync (time_lt s now) (.inl rfl) rfl
  · by_cases h8 : s.pendingLen = 7
    · rw [nextByte_eighth b now h8] at hsync ⊢
      exact inv_of_sync h hc hsync (time_lt s now) (.inr rfl) rfl
    · obtain ⟨-, h7⟩ := h.sync.accumulating_iff.mp ha
      rw [nextByte_earlier b now (by omega)] at hsync ⊢
      exact inv_of_sync h hc hsync (time_lt s now) (.inl rfl) rfl

theorem inv_poll {now : Nat} {s t : State} (h : s.Inv) (hn : poll now s = .next t) : t.Inv := by
  have hsync := poll_syncInv h.sync hn
  obtain ⟨hc, rfl | rfl⟩ := poll_next hn
  · exact inv_of_sync h hc hsync h.lastActivity (.inl rfl) rfl
  · exact inv_of_sync h hc hsync (time_lt s now) (.inl rfl) rfl

theorem inv_configure {c : Cfg} {s t : State} (h : s.Inv) (hn : configure c s = .next t) : t.Inv := by
  obtain ⟨hc, ⟨hw, rfl⟩ | rfl⟩ := configure_next hn
  · exact inv_loadConfig h hc hw
  · exact inv_flagCfgError h hc

theorem size_le_of_inv {s : State} (h : s.Inv) (hc : s.configured = true) (k : RegKind) : s.size k ≤ Config.maxArraySize := by
  cases k with
  | input => exact (h.cfg hc).inputCount.2
  | holding => exact (h.cfg hc).holdingCount.2

theorem bankOk_of_inv {s : State} (h : s.Inv) : BankOk s := by
  refine ⟨h.hr, h.ir, fun k => ?_⟩
  cases hc : s.configured with
  | false => simp [State.hostSize, hc]
  | true => rw [State.hostSize, if_pos hc]; exact size_le_of_inv h hc k

theorem inv_hostAccess {a : HostAccess} {s t : State} (h : s.Inv) (hn : (hostAccess a s).outcome = .next t) : t.Inv := by
  have hrun := hostAccess_next hn
  have hbank := (bankOk_of_inv h).hostAccess a (Q := fun _ => True)
  rw [hrun] at hbank
  exact inv_of_sameCore h (hostAccess_sameCore hrun) hbank.hr hbank.ir

theorem inv_bulkLoad {k : RegKind} {start : Nat} {vs : List Word} {s : State} (h : s.Inv) (hc : s.configured = true) :
    (bulkLoad k start vs s).Inv := by
  rcases bulkLoad_cases k start vs s with ⟨hle, heq⟩ | heq
  · have hbank := (bankOk_of_inv h).loadValues k (hle.trans (size_le_of_inv h hc k))
    exact inv_of_sameCore h (sameCore_bulkLoad k start vs s) (heq ▸ hbank.hr) (heq ▸ hbank.ir)
  · rw [heq]; exact h

theorem inv_bulkStore {k : RegKind} {start n : Nat} {s : State} (h : s.Inv) : (bulkStore k start n s).Inv := by
  rcases bulkStore_cases k start n s with ⟨vs, heq⟩ | heq
  · rw [heq]; exact inv_of_sameCore h rfl h.hr h.ir
  · rw [heq]; exact h

theorem inv_handle {e : Event} {s t : State} (h : s.Inv) (hn : handle e s = .next t) : t.Inv := by
  cases e with
  | reset =>
    obtain rfl := Host.Outcome.next.inj hn
    exact inv_coreReset h.hr h.ir
  | configure c => exact inv_configure h hn
  | rxByte b now => exact inv_rxByte h hn
  | poll now => exact inv_poll h hn
  | hostRead k i => exact inv_hostAccess h hn
  | hostWrite k i v => exact inv_hostAccess h hn
  | bulkLoad k start vs =>
    obtain ⟨hc, rfl⟩ := whenSized_next hn
    exact inv_bulkLoad h hc
  | bulkStore k start n =>
    obtain ⟨-, rfl⟩ := whenSized_next hn
    exact inv_bulkStore h
  | hostSample => exact inv_hostAccess (a := .sample) h hn

/-! ## `Process` -/

/-- The size of `TX` behind a transaction: a longer response than the buffer has room for is that of a write with
`MAX_READ_COUNT = 1` (log entry 14). -/
theorem txSize_of_replyFits {s t : State} (h : s.Inv) (hc : s.configured = true) (ht : ReplyFits s t) :
    (t.tx.length = txBufLen s.maxReadCount ∨ (s.maxReadCount = 1 ∧ t.tx.length = 8)) ∧ t.txLen ≤ t.tx.length := by
  obtain ⟨hlen, hle⟩ := ht
  obtain ⟨h1, -⟩ := (h.cfg hc).maxReadCount
  have hsize := h.txSize
  unfold txBufLen at *
  refine ⟨?_, by rw [hlen]; exact Nat.le_max_right _ _⟩
  omega

theorem inv_process {s t : State} (h : s.Inv) (hc : s.configured = true)
    (hn : ((atGap s).andThen filtered).outcome = .next t) : t.Inv := by
  have hstable : StableToEnd (fun m => SameSettings s m ∧ m.lastActivity = s.lastActivity) _ _ :=
    stableToEnd_of_sameRequest fun hs hm => ⟨hm.1.trans hs.sameSettings, by rw [hs]; exact hm.2⟩
  have hset := hstable.process (s := s) ⟨rfl, rfl⟩ (fun m hm => ⟨hm.1.trans rfl, hm.2⟩) (fun m i hm => ⟨hm.1.trans rfl, hm.2⟩)
    fun m a v hm => ⟨hm.1.trans (sameCore_setReg m .holding a.toNat v).sameSettings, hm.2⟩
  rcases (((process_bankOk (bankOk_of_inv h)).and hset).and (process_tx s)).next hn with
    ⟨⟨⟨hbank, hended⟩, ⟨hsame, hlast⟩, -⟩, htx⟩ | ⟨⟨⟨m, hm, rfl⟩, -⟩, -⟩
  · have hmax : t.maxReadCount = s.maxReadCount := hsame.sameConfig.maxReadCount
    have hsize : (t.tx.length = txBufLen s.maxReadCount ∨ (s.maxReadCount = 1 ∧ t.tx.length = 8)) ∧ t.txLen ≤ t.tx.length := by
      rcases htx with ⟨htx, htl⟩ | hfits
      · rw [htx, htl]; exact ⟨h.txSize, h.txLen⟩
      · exact txSize_of_replyFits h hc hfits
    exact {
      sync := syncInv_of_idle hended.syncState hended.pendingLen
      lastActivity := by rw [hlast, hsame.sameConfig.tw]; exact h.lastActivity
      cfg := fun _ => cfgInv_of_sameSettings hsame (h.cfg hc)
      unconfigured := fun hf => by rw [hsame.configured, hc] at hf; cases hf
      txSize := by rw [hmax]; exact hsize.1
      txLen := hsize.2
      result := hended.result
      hr := hbank.hr
      ir := hbank.ir }
  · exact inv_coreReset hm.hr hm.ir

/-- Settles O20: `Process`, every event, and the step that does nothing keep the invariant. -/
theorem stepKeepsTheInvariant : Obligations.StepKeepsTheInvariant := by
  unfold Obligations.StepKeepsTheInvariant
  intro s t h hn
  rcases step_next hn with ⟨hc, -, hp⟩ | ⟨-, e, es, -, he⟩ | rfl
  · exact inv_process h hc hp
  · have htaken : ({ s with inputs := es } : State).Inv := {
      sync := syncInv_congr h.sync rfl rfl
      lastActivity := h.lastActivity
      cfg := fun hc => cfgInv_of_sameSettings (s := s) rfl (h.cfg hc)
      unconfigured := h.unconfigured
      txSize := h.txSize
      txLen := h.txLen
      result := h.result
      hr := h.hr
      ir := h.ir }
    exact inv_handle htaken he
  · exact h

end Sys2Proof.Machine
end

section
/-! PROOFS. What one frame can do to the register bank when the host is not active inside (spec/10_state.md R12; 42_register_bank.md
R97). -/

namespace Sys2Proof.Machine

/-- A request either leaves the bank as it is, or is a `WSR` inside the array and sets the one register that it names. -/
theorem exec_bank_quiet {s t : State} {i : Instr} (hq : s.quiet) (h : exec i s = .next t) :
    (∀ k j, t.reg k j = s.reg k j) ∨
    (i.functionCode = 0x06 ∧ i.fieldA.toNat + 1 ≤ s.holdingCount ∧
      ∀ k j, ¬(k = .holding ∧ j = i.fieldA.toNat) → t.reg k j = s.reg k j) := by
  obtain ⟨b, r, hb, -⟩ := exists_begins s i
  cases hb with
  | refused i code hc =>
    obtain rfl := Host.Outcome.next.inj ((exec_refused_quiet hq hc).symm.trans h)
    exact .inl fun k j => reg_congr rfl rfl k j
  | read k addr start count hr hm =>
    obtain rfl := Host.Outcome.next.inj ((exec_readRequest_quiet hq hr hm).symm.trans h)
    exact .inl fun k j => reg_congr rfl rfl k j
  | write addr a v hr =>
    obtain rfl := Host.Outcome.next.inj ((exec_wsr_quiet hq hr).symm.trans h)
    exact .inr ⟨rfl, hr, fun k j hj => (reg_congr rfl rfl k j).trans (reg_setReg_other s .holding k a.toNat j v hj)⟩

/-- The register that a served write names holds its value. -/
theorem exec_wsr_quiet_reg {s t : State} {addr : Byte} {a v : Word} (hq : s.quiet) (hr : a.toNat + 1 ≤ s.holdingCount)
    (h : exec (.wsr addr a v) s = .next t) : t.reg .holding a.toNat = v := by
  obtain rfl := Host.Outcome.next.inj ((exec_wsr_quiet hq hr).symm.trans h)
  exact (reg_congr rfl rfl .holding a.toNat).trans (reg_setReg_same s .holding a.toNat v)

/-- A frame that fails either test is dropped (R142, R143), on a state in which at most the verification has left its mark. -/
theorem filterAndRun_of_fail {s : State} (h : s.rx.b0 ≠ s.deviceAddr ∨ s.rx.crcField ≠ crc16 s.rx.body) :
    ∃ m, filterAndRun s = (dropFrame m).outcome ∧ m = { s with crcAcc := m.crcAcc, crcMatch := m.crcMatch } := by
  by_cases ha : s.rx.b0 = s.deviceAddr
  · exact ⟨s.applyVerify, filterAndRun_of_crc_ne ha (h.resolve_left fun hne => hne ha), rfl⟩
  · exact ⟨s, filterAndRun_of_foreign ha, rfl⟩

/-- Settles O55: a dropped frame leaves the bank, and a verified one runs the request that it decodes to. -/
theorem aFrameChangesAtMostOneHoldingRegister : Obligations.AFrameChangesAtMostOneHoldingRegister := by
  unfold Obligations.AFrameChangesAtMostOneHoldingRegister
  intro s t hc hf hq h i commits
  rw [step_process hc hf, process_quiet hq] at h
  by_cases hpass : s.rx.b0 = s.deviceAddr ∧ s.rx.crcField = crc16 s.rx.body
  · rw [filterAndRun_of_crc_eq hpass.1 hpass.2] at h
    have hreg : ∀ k j, ({ s with crcAcc := crc16 s.rx.body, crcMatch := true } : State).reg k j = s.reg k j :=
      fun k j => reg_congr rfl rfl k j
    have hother : ∀ k j, ¬(k = .holding ∧ commits ∧ j = i.fieldA.toNat) → t.reg k j = s.reg k j := fun k j hj => by
      rcases exec_bank_quiet (i := i) (by exact hq) h with hsame | ⟨hfc, hr, hsame⟩
      · exact (hsame k j).trans (hreg k j)
      · exact (hsame k j fun hkj => hj ⟨hkj.1, ⟨hpass.1, hpass.2, hfc, hr⟩, hkj.2⟩).trans (hreg k j)
    refine ⟨fun j => hother .input j (by simp), fun j hj => hother .holding j fun h => hj h.2, fun hcom => ?_⟩
    obtain ⟨-, -, hfc, hr⟩ := hcom
    have hdec : i = .wsr s.rx.b0 i.fieldA i.fieldB := by
      have hb1 : s.rx.b1 = 0x06 := (decode_functionCode s.rx).symm.trans hfc
      rw [show i = decode s.rx from rfl, decode_of_wsr hb1]
      rfl
    rw [show decode s.rx = i from rfl, hdec] at h
    exact exec_wsr_quiet_reg (s := { s with crcAcc := crc16 s.rx.body, crcMatch := true }) hq hr h
  · obtain ⟨m, hm, hsm⟩ := filterAndRun_of_fail (not_and_or.mp hpass)
    have hmq : m.quiet := by rw [hsm]; exact hq
    rw [hm, dropFrame_outcome_quiet hmq] at h
    have hhr : m.hr = s.hr := by rw [hsm]
    have hir : m.ir = s.ir := by rw [hsm]
    have hsame : ∀ k j, t.reg k j = s.reg k j := by
      obtain rfl := Host.Outcome.next.inj h
      exact fun k j => reg_congr hhr hir k j
    exact ⟨fun j => hsame .input j, fun j _ => hsame .holding j, fun hcom => absurd ⟨hcom.1, hcom.2.1⟩ hpass⟩

end Sys2Proof.Machine
end

section
/-! PROOFS. A `Reset` at each point of a transaction (spec/70_reset_and_hazards.md R170): what was done stays done, and the rest does
not happen. -/

namespace Sys2Proof.Machine

/-- A transaction of `s` has come to `u`: it has put out `os` and written no register, and the gaps `gs` are still to come. -/
structure Reached (s u : State) (gs : List Gap) (os : List Output) : Prop where
  hr : u.hr = s.hr
  ir : u.ir = s.ir
  inputs : u.inputs = s.inputs
  gaps : u.gaps = gs
  tw : u.tw = s.tw
  out : u.out = s.out ++ os

theorem Reached.trans {s m u : State} {gs gs' : List Gap} {os ps : List Output} (h : Reached s m gs' os) (h' : Reached m u gs ps) :
    Reached s u gs (os ++ ps) :=
  ⟨h'.hr.trans h.hr, h'.ir.trans h.ir, h'.inputs.trans h.inputs, h'.gaps, h'.tw.trans h.tw, by rw [h'.out, h.out, List.append_assoc]⟩

theorem Reached.refl (s : State) : Reached s s s.gaps [] := ⟨rfl, rfl, rfl, rfl, rfl, (List.append_nil _).symm⟩

theorem reached_latch (s : State) (i : Instr) : Reached s (s.latch i) s.gaps [] :=
  ⟨rfl, rfl, rfl, rfl, rfl, (List.append_nil _).symm⟩

theorem Reached.txWrite {s m : State} {gs : List Gap} {os : List Output} (h : Reached s m gs os) (n : Nat) (bs : List Byte) :
    Reached s (m.txWrite n bs) gs os := ⟨h.hr, h.ir, h.inputs, h.gaps, h.tw, h.out⟩

theorem Reached.setTxLen {s m : State} {gs : List Gap} {os : List Output} (h : Reached s m gs os) (n : Nat) :
    Reached s (m.setTxLen n) gs os := ⟨h.hr, h.ir, h.inputs, h.gaps, h.tw, h.out⟩

theorem Reached.emit {s m : State} {gs : List Gap} {os : List Output} (h : Reached s m gs os) (o : Output) :
    Reached s (m.emit o) gs (os ++ [o]) := ⟨h.hr, h.ir, h.inputs, h.gaps, h.tw, by rw [emit_out, h.out, List.append_assoc]⟩

theorem Reached.reg {s u : State} {gs : List Gap} {os : List Output} (h : Reached s u gs os) (k : RegKind) (j : Nat) :
    u.coreReset.reg k j = s.reg k j := reg_congr h.hr h.ir k j

/-- What a `Reset` leaves at the point that the transaction has come to (R170, R171). -/
theorem Reached.cutByReset {s u : State} {gs : List Gap} {os : List Output} (h : Reached s u gs os) : CutByReset s u.coreReset gs :=
  ⟨hasResetValues_coreReset u, h.inputs, h.gaps, h.tw⟩

/-- A `Reset` behind the first `m` of the three points of the response tail: the frame is out from the second point on. -/
theorem respond_resetting {r : Result} {s : State} {gs : List Gap} {m : Nat} (hm : m ≤ 2)
    (hg : s.gaps = List.replicate m .still ++ .resetting :: gs) :
    ∃ u, respond r s = .cut u.coreReset ∧ Reached s u gs (if m = 0 then [] else [.txFrame s.applyAppend.response]) := by
  unfold respond conclude
  obtain rfl | rfl | rfl : m = 0 ∨ m = 1 ∨ m = 2 := by omega
  · exact ⟨{ s.applyAppend with gaps := gs }, by rw [atGap_resetting (s := s.applyAppend) hg]; rfl, rfl, rfl, rfl, rfl, rfl,
      (List.append_nil _).symm⟩
  · refine ⟨{ s.applyAppend.emit (.txFrame s.applyAppend.response) with gaps := gs }, ?_, rfl, rfl, rfl, rfl, rfl, rfl⟩
    rw [atGap_still (s := s.applyAppend) hg, Txn.run_andThen, atGap_resetting rfl]
    rfl
  · refine ⟨{ (s.applyAppend.emit (.txFrame s.applyAppend.response)).toIdle with gaps := gs }, ?_, rfl, rfl, rfl, rfl, rfl, rfl⟩
    rw [atGap_still (s := s.applyAppend) hg, Txn.run_andThen, atGap_still (gs := .resetting :: gs) rfl, Txn.run_andThen,
      atGap_resetting (gs := gs) rfl]
    rfl

/-- A request whose beginning runs to `m` is cut where its response tail is. -/
theorem exec_of_respond_cut {s m u : State} {i : Instr} {b : Txn} {r : Result} (ht : transaction i s = b.andThen (respond r))
    (hb : b = .run m) (hr : respond r m = .cut u) : exec i s = .next u := by
  rw [exec_eq_outcome, ht, hb, Txn.run_andThen, hr]
  rfl

/-- A request that is cut before its response. -/
theorem exec_of_prepare_cut {s u : State} {i : Instr} {b : Txn} {r : Result} (ht : transaction i s = b.andThen (respond r))
    (hb : b = .cut u) : exec i s = .next u := by
  rw [exec_eq_outcome, ht, hb]
  rfl

/-! ## Refused requests -/

theorem prepareRefusal_response (i : Instr) (code : Byte) (s : State) :
    (prepareRefusal i code s).applyAppend.response = withCrc (exceptionBody i.addr i.functionCode code) :=
  (applyAppend_response (le_memWrite_length s.tx 0 (exceptionBody i.addr i.functionCode code) (Nat.zero_le _))).trans
    (congrArg withCrc (response_txWrite_start s (exceptionBody i.addr i.functionCode code)))

/-- A `Reset` behind the first `m` points of a refused request. -/
theorem exec_refused_resetting {s : State} {i : Instr} {code : Byte} {gs : List Gap} {m : Nat} (h : s.refusalCode i = some code)
    (hm : m ≤ 2) (hg : s.gaps = List.replicate m .still ++ .resetting :: gs) :
    ∃ t, exec i s = .next t ∧ CutByReset s t gs ∧ (∀ k j, t.reg k j = s.reg k j) ∧
      t.out = s.out ++ if m = 0 then [] else [.txFrame (withCrc (exceptionBody i.addr i.functionCode code))] := by
  obtain ⟨u, hu, hreach⟩ := respond_resetting (r := Result.noActionResult) (s := prepareRefusal i code (s.latch i)) hm hg
  rw [prepareRefusal_response] at hreach
  have hsu := (((reached_latch s i).txWrite _ _).setTxLen 3).trans hreach
  exact ⟨_, exec_of_respond_cut (b := .run (prepareRefusal i code (s.latch i))) (transaction_refused h) rfl hu,
    hsu.cutByReset, hsu.reg, hsu.out⟩

/-- Settles O58: `exec_refused_resetting` at each of the three points. -/
theorem resetInsideARefusalKeepsDoneActions : Obligations.ResetInsideARefusalKeepsDoneActions := by
  unfold Obligations.ResetInsideARefusalKeepsDoneActions
  intro s i code gs h
  refine ⟨fun hg => ?_, exec_refused_resetting (m := 1) h (by omega), exec_refused_resetting (m := 2) h (by omega)⟩
  simpa using exec_refused_resetting (m := 0) h (by omega) hg

/-! ## Points at which the host does nothing but sample (R32) -/

/-- A point at which the host samples the status registers `c` times: `Gap.still` for 0, `Gap.sampling` for 1. -/
def Gap.samples (c : Nat) : Gap := Gap.mk (List.replicate c .sample) false

theorem hostAccesses_samples (c : Nat) (s : State) :
    hostAccesses (List.replicate c .sample) s = .run { s with out := s.out ++ List.replicate c (.hostStatus s.status) } := by
  induction c generalizing s with
  | zero => simp [hostAccesses]
  | succ c ih =>
    have htail := ih (s.emit (.hostStatus s.status))
    rw [emit_status, emit_out] at htail
    rw [List.replicate_succ, hostAccesses, hostAccess, Txn.run_andThen, htail, List.replicate_succ, List.append_assoc]
    rfl

theorem atGap_samples {s : State} {c : Nat} {gs : List Gap} (h : s.gaps = Gap.samples c :: gs) :
    ∃ m, atGap s = .run m ∧ SameCore s m ∧ Reached s m gs (List.replicate c (.hostStatus s.status)) := by
  have hgap : atGap s = (hostAccesses (List.replicate c .sample) { s with gaps := gs }).andThen .run := by
    simp [atGap, h, Gap.samples]
  rw [hgap, hostAccesses_samples]
  exact ⟨_, rfl, rfl, rfl, rfl, rfl, rfl, rfl, rfl⟩

/-- Samples change no register. -/
theorem regAfterGaps_samples {s : State} {c n p : Nat} {gs : List Gap} (h : s.gaps = List.replicate n (Gap.samples c) ++ gs)
    (hp : p ≤ n) (k : RegKind) (j : Nat) : s.regAfterGaps k j p = s.reg k j := by
  refine valueAfter_of_not_mem (fun v hv => ?_) _
  obtain ⟨g, hg, hmem⟩ := List.mem_flatMap.mp hv
  rw [h, List.take_append_of_le_length (by simpa using hp)] at hg
  obtain rfl := (List.mem_replicate.mp (List.mem_of_mem_take hg)).2
  cases (List.mem_replicate.mp hmem).2

/-- The read loop, when the host does nothing but sample. -/
theorem readLoop_samples (k : RegKind) (a i : Nat) {s : State} {c n : Nat} {gs : List Gap}
    (h : s.gaps = List.replicate n (Gap.samples c) ++ gs) :
    ∃ u, readLoop k a n i s = .run u ∧ Reached s u gs (List.replicate (n * c) (.hostStatus s.status)) := by
  induction n generalizing i s with
  | zero => exact ⟨s, rfl, rfl, rfl, rfl, h, rfl, by simp⟩
  | succ n ih =>
    obtain ⟨m, hm, hcore, hreach⟩ := atGap_samples (s := s) h
    obtain ⟨u, hu, hreach'⟩ := ih (i + 1) (s := m.txWrite (3 + 2 * i) (leBytes (m.reg k (a + i)))) hreach.gaps
    refine ⟨u, by rw [readLoop, hm, Txn.run_andThen, hu], ?_⟩
    have htotal := (hreach.txWrite (3 + 2 * i) (leBytes (m.reg k (a + i)))).trans hreach'
    rw [txWrite_status, hcore.status, List.replicate_append_replicate, Nat.add_comm, ← Nat.succ_mul] at htotal
    exact htotal

/-- A `Reset` before a register that the read loop has still to read. -/
theorem readLoop_resetting (k : RegKind) (a i : Nat) {s : State} {m n : Nat} {gs : List Gap} (hm : m < n)
    (h : s.gaps = List.replicate m .still ++ .resetting :: gs) :
    ∃ u, readLoop k a n i s = .cut u.coreReset ∧ Reached s u gs [] := by
  obtain ⟨n, rfl⟩ : ∃ p, n = p + 1 := ⟨n - 1, by omega⟩
  induction m generalizing n i s with
  | zero => exact ⟨{ s with gaps := gs }, by rw [readLoop, atGap_resetting h]; rfl, rfl, rfl, rfl, rfl, rfl, (List.append_nil _).symm⟩
  | succ m ih =>
    obtain ⟨p, rfl⟩ : ∃ p, n = p + 1 := ⟨n - 1, by omega⟩
    obtain ⟨v, hv, -, hreach⟩ := atGap_samples (c := 0) (s := s) h
    obtain ⟨u, hu, hreach'⟩ := ih (i + 1) (s := v.txWrite (3 + 2 * i) (leBytes (v.reg k (a + i)))) hreach.gaps p (by omega)
    exact ⟨u, by rw [readLoop, hv, Txn.run_andThen, hu], (hreach.txWrite _ _).trans hreach'⟩

/-! ## Served reads -/

/-- What the read observer is told (R131). -/
def readEvents (s : State) (body : List Byte) : List Output := if s.readHookEn then [.readEvent body s.hookCtx] else []

theorem Reached.readHook {s m : State} {gs : List Gap} {os : List Output} (h : Reached s m gs os) :
    Reached s (readHook m) gs (os ++ readEvents m m.response) := by
  rw [readHook_eq]
  exact ⟨h.hr, h.ir, h.inputs, h.gaps, h.tw, by rw [h.out, List.append_assoc]; rfl⟩

/-- A served read up to its response, when the host does nothing but sample: the body of the registers as they stand, and the event. -/
theorem prepareRead_samples (k : RegKind) (addr fc : Byte) (a : Nat) {s : State} {c n : Nat} {gs : List Gap}
    (h : s.gaps = List.replicate (n + 1) (Gap.samples c) ++ gs) :
    ∃ m, prepareRead k addr fc a n s = .run m ∧ m.status = s.status ∧ m.applyAppend.response = withCrc (readBody s k addr fc a n) ∧
      Reached s m gs (List.replicate ((n + 1) * c) (.hostStatus s.status) ++ readEvents s (readBody s k addr fc a n)) := by
  have hgaps : s.gaps = List.replicate n (Gap.samples c) ++ Gap.samples c :: gs := by
    rw [h, List.replicate_succ', List.append_assoc, List.singleton_append]
  obtain ⟨u, hu, hreach⟩ := readLoop_samples k a 0 (s := s.txWrite 0 [addr, fc, BitVec.ofNat 8 (2 * n)]) hgaps
  obtain ⟨hloop, -⟩ := readLoop_run hu (by simp [memWrite])
  obtain ⟨w, hw, hcore, hreach'⟩ := atGap_samples (s := u.setTxLen (3 + 2 * n)) hreach.gaps
  have hrun : prepareRead k addr fc a n s = .run (readHook w) := by rw [prepareRead, hu, Txn.run_andThen, hw, Txn.run_andThen]
  obtain ⟨hlen, hresp⟩ := prepareRead_run hrun
  have hbody : (readHook w).response = readBody s k addr fc a n := by
    rw [hresp, readBody, readPayload]
    refine congrArg _ (List.flatMap_congr fun j hj => ?_)
    rw [regAfterGaps_samples h (Nat.succ_le_succ (List.mem_range.mp hj).le)]
  have hstatus : w.status = s.status := hcore.status.trans (by rw [setTxLen_status, hloop]; rfl)
  have hevents : readEvents w w.response = readEvents s (readBody s k addr fc a n) := by
    have hw' : w.response = readBody s k addr fc a n := by rw [← hbody, readHook_eq]; rfl
    rw [hw', readEvents, readEvents, hcore.readHookEn, hcore.hookCtx, setTxLen_readHookEn, setTxLen_hookCtx, hloop]
    rfl
  have hloopStatus : (u.setTxLen (3 + 2 * n)).status = s.status := hcore.status.symm.trans hstatus
  refine ⟨readHook w, hrun, by rw [readHook_eq]; exact hstatus, by rw [applyAppend_response hlen, hbody], ?_⟩
  have htotal := ((((Reached.refl s).txWrite _ _).trans hreach).setTxLen (3 + 2 * n)).trans hreach' |>.readHook
  rw [hevents, hloopStatus, txWrite_status, List.nil_append, List.replicate_append_replicate, ← Nat.succ_mul] at htotal
  exact htotal

theorem transaction_read {s : State} {k : RegKind} {addr : Byte} {start count : Word}
    (hr : start.toNat + count.toNat ≤ s.size k) (hm : count.toNat ≤ s.maxReadCount) :
    let i := readRequest k addr start count
    transaction i s =
      (prepareRead k addr i.functionCode start.toNat count.toNat (s.latch i)).andThen (respond Result.noActionResult) := by
  intro i
  rw [transaction_readRequest, readRegs_of_le (by simpa using hr) (by simpa using hm)]

/-- A `Reset` before a register of a served read has been read, or before its observer event: nothing is out. -/
theorem prepareRead_resetting (k : RegKind) (addr fc : Byte) (a : Nat) {s : State} {m n : Nat} {gs : List Gap} (hm : m ≤ n)
    (h : s.gaps = List.replicate m .still ++ .resetting :: gs) :
    ∃ u, prepareRead k addr fc a n s = .cut u.coreReset ∧ Reached s u gs [] := by
  have hhead := (Reached.refl s).txWrite 0 [addr, fc, BitVec.ofNat 8 (2 * n)]
  rcases hm.lt_or_eq with hlt | rfl
  · obtain ⟨u, hu, hreach⟩ := readLoop_resetting k a 0 hlt (s := s.txWrite 0 [addr, fc, BitVec.ofNat 8 (2 * n)]) h
    exact ⟨u, by rw [prepareRead, hu]; rfl, hhead.trans hreach⟩
  · obtain ⟨u, hu, hreach⟩ := readLoop_samples (c := 0) k a 0 (s := s.txWrite 0 [addr, fc, BitVec.ofNat 8 (2 * m)]) h
    refine ⟨{ u.setTxLen (3 + 2 * m) with gaps := gs }, ?_, ?_⟩
    · rw [prepareRead, hu, Txn.run_andThen, atGap_resetting (s := u.setTxLen (3 + 2 * m)) hreach.gaps]
      rfl
    · exact hhead.trans ⟨hreach.hr, hreach.ir, hreach.inputs, rfl, hreach.tw, hreach.out⟩

/-- A `Reset` behind the first `m` points of a served read. -/
theorem exec_readRequest_resetting {s : State} {k : RegKind} {addr : Byte} {start count : Word} {m : Nat} {gs : List Gap}
    (hr : start.toNat + count.toNat ≤ s.size k) (hmax : count.toNat ≤ s.maxReadCount) (hm : m ≤ count.toNat + 3)
    (hg : s.gaps = List.replicate m .still ++ .resetting :: gs) :
    let i := readRequest k addr start count
    let body := readBody s k addr i.functionCode start.toNat count.toNat
    ∃ u, exec i s = .next u.coreReset ∧ Reached s u gs (if m ≤ count.toNat then [] else
      if m = count.toNat + 1 then readEvents s body else readEvents s body ++ [.txFrame (withCrc body)]) := by
  intro i body
  rcases Nat.lt_or_ge count.toNat m with hgt | hle
  · obtain ⟨p, rfl⟩ := Nat.exists_eq_add_of_le (Nat.succ_le_of_lt hgt)
    rw [List.replicate_add, List.append_assoc] at hg
    obtain ⟨v, hv, -, hresp, hreach⟩ := prepareRead_samples (c := 0) k addr i.functionCode start.toNat (s := s.latch i) hg
    obtain ⟨u, hu, hreach'⟩ := respond_resetting (r := Result.noActionResult) (m := p) (by omega) hreach.gaps
    rw [readBody_latch] at hresp hreach
    rw [hresp] at hreach'
    refine ⟨u, exec_of_respond_cut (transaction_read hr hmax) hv hu, ?_⟩
    have htotal := ((reached_latch s i).trans hreach).trans hreach'
    rw [Nat.mul_zero, List.replicate_zero, List.nil_append, List.nil_append] at htotal
    rw [if_neg (by omega)]
    rcases Nat.eq_zero_or_pos p with rfl | hp
    · rw [if_pos rfl, List.append_nil] at htotal
      rw [if_pos rfl]
      exact htotal
    · rw [if_neg hp.ne'] at htotal
      rw [if_neg (by omega)]
      exact htotal
  · obtain ⟨u, hu, hreach⟩ := prepareRead_resetting k addr i.functionCode start.toNat hle (s := s.latch i) hg
    refine ⟨u, by rw [exec_eq_outcome, transaction_read hr hmax, hu]; rfl, ?_⟩
    rw [if_pos hle]
    exact (reached_latch s i).trans hreach

/-- Settles O57: both kinds are `exec_readRequest_resetting`. -/
theorem resetInsideAReadKeepsDoneActions : Obligations.ResetInsideAReadKeepsDoneActions := by
  unfold Obligations.ResetInsideAReadKeepsDoneActions
  intro s k addr start count m gs hr hmax hm hg
  obtain ⟨u, hu, hreach⟩ := exec_readRequest_resetting (k := k) (addr := addr) hr hmax hm hg
  cases k with
  | holding => exact ⟨u.coreReset, hu, hreach.cutByReset, hreach.reg, hreach.out⟩
  | input => exact ⟨u.coreReset, hu, hreach.cutByReset, hreach.reg, hreach.out⟩

/-! ## Served writes -/

/-- What the write observer is told (R132). -/
def writeEvents (s : State) (i : Instr) : List Output :=
  if s.writeHookEn then [.preWriteEvent (encode i).bytes s.hookCtx] else []

theorem Reached.preWriteHook {s m : State} {gs : List Gap} {os : List Output} (h : Reached s m gs os) (i : Instr) :
    Reached s (preWriteHook i m) gs (os ++ writeEvents m i) := by
  rw [preWriteHook_eq]
  exact ⟨h.hr, h.ir, h.inputs, h.gaps, h.tw, by rw [h.out, List.append_assoc]; rfl⟩

theorem transaction_wsr {s : State} {addr : Byte} {a v : Word} (hr : a.toNat + 1 ≤ s.holdingCount) :
    let i := Instr.wsr addr a v
    transaction i s = (prepareWrite i (s.latch i)).andThen (respond (Result.writtenResult v)) :=
  writeReg_eq_prepareWrite (i := .wsr addr a v) (s := s.latch (.wsr addr a v)) hr

/-- A served write up to its commit, when the host does nothing but sample. -/
theorem preWrite_samples (i : Instr) {s : State} {c : Nat} {gs : List Gap} (h : s.gaps = .samples c :: gs) :
    ∃ u, atGap s = .run u ∧ SameCore s (preWriteHook i u) ∧
      Reached s (preWriteHook i u) gs (List.replicate c (.hostStatus s.status) ++ writeEvents s i) := by
  obtain ⟨u, hu, hcore, hreach⟩ := atGap_samples h
  have hevents : writeEvents u i = writeEvents s i := by rw [writeEvents, writeEvents, hcore.writeHookEn, hcore.hookCtx]
  exact ⟨u, hu, hcore.trans (by rw [preWriteHook_eq]; rfl), hevents ▸ hreach.preWriteHook i⟩

/-- A `Reset` before the observer event of a write: nothing is done. -/
theorem prepareWrite_resetting_event {i : Instr} {s : State} {gs : List Gap} (h : s.gaps = .resetting :: gs) :
    ∃ u, prepareWrite i s = .cut u.coreReset ∧ Reached s u gs [] :=
  ⟨{ s with gaps := gs }, by rw [prepareWrite, atGap_resetting h]; rfl, rfl, rfl, rfl, rfl, rfl, (List.append_nil _).symm⟩

/-- A `Reset` between the observer event of a write and its commit: the event is out. -/
theorem prepareWrite_resetting_commit {i : Instr} {s : State} {gs : List Gap} (h : s.gaps = .still :: .resetting :: gs) :
    ∃ u, prepareWrite i s = .cut u.coreReset ∧ Reached s u gs (writeEvents s i) := by
  obtain ⟨u, hu, -, hreach⟩ := preWrite_samples (c := 0) i h
  refine ⟨{ preWriteHook i u with gaps := gs }, ?_, hreach.hr, hreach.ir, hreach.inputs, rfl, hreach.tw, hreach.out⟩
  rw [prepareWrite, hu, Txn.run_andThen, atGap_resetting hreach.gaps]
  rfl

/-- A commit behind what has been done is a transaction of the state that has the register already. -/
theorem Reached.commit {s m : State} {gs : List Gap} {os : List Output} (h : Reached s m gs os) (i : Nat) (v : Word) :
    Reached (s.setReg .holding i v) (m.setReg .holding i v) gs os :=
  ⟨by rw [setReg_hr_holding, setReg_hr_holding, h.hr], h.ir, h.inputs, h.gaps, h.tw, h.out⟩

/-- A served write up to its response, when the host does nothing but sample: the event is out, and the register is written. -/
theorem prepareWrite_samples (i : Instr) {s : State} {c : Nat} {gs : List Gap} (h : s.gaps = .samples c :: .samples c :: gs) :
    ∃ m, prepareWrite i s = .run m ∧ m.status = s.status ∧ m.applyAppend.response = withCrc i.body ∧
      Reached (s.setReg .holding i.fieldA.toNat i.fieldB) m gs
        (List.replicate c (.hostStatus s.status) ++ writeEvents s i ++ List.replicate c (.hostStatus s.status)) := by
  obtain ⟨u, hu, hcore, hreach⟩ := preWrite_samples i h
  obtain ⟨w, hw, hcore', hreach'⟩ := atGap_samples hreach.gaps
  rw [hcore.status] at hreach'
  refine ⟨((w.setReg .holding i.fieldA.toNat i.fieldB).txWrite 0 i.body).setTxLen 6,
    by rw [prepareWrite, hu, Txn.run_andThen, hw, Txn.run_andThen], hcore'.status.trans hcore.status, ?response,
    (((hreach.trans hreach').commit i.fieldA.toNat i.fieldB).txWrite 0 i.body).setTxLen 6⟩
  case response =>
    exact (applyAppend_response (le_memWrite_length _ 0 i.body (Nat.zero_le _))).trans
      (congrArg withCrc (response_txWrite_start _ i.body))

/-- What a `Reset` leaves behind the commit of a write: the register written, every other one as it was. -/
theorem Reached.of_commit {s u : State} {gs : List Gap} {os : List Output} {a : Nat} {v : Word}
    (h : Reached (s.setReg .holding a v) u gs os) :
    CutByReset s u.coreReset gs ∧ u.coreReset.out = s.out ++ os ∧ u.coreReset.reg .holding a = v ∧
      ∀ k j, ¬(k = .holding ∧ j = a) → u.coreReset.reg k j = s.reg k j := by
  obtain ⟨hvalues, hin, hg, htw⟩ := h.cutByReset
  exact ⟨⟨hvalues, hin, hg, htw⟩, h.out, (h.reg .holding a).trans (reg_setReg_same s .holding a v),
    fun k j hj => (h.reg k j).trans (reg_setReg_other s .holding k a j v hj)⟩

/-- A `Reset` behind the commit of a served write and the first `m` points of its response tail. -/
theorem exec_wsr_resetting {s : State} {addr : Byte} {a v : Word} {m : Nat} {gs : List Gap} (hr : a.toNat + 1 ≤ s.holdingCount)
    (hm : m ≤ 2) (hg : s.gaps = .still :: .still :: (List.replicate m .still ++ .resetting :: gs)) :
    let i := Instr.wsr addr a v
    ∃ t, exec i s = .next t ∧ CutByReset s t gs ∧
      t.out = s.out ++ (writeEvents s i ++ if m = 0 then [] else [.txFrame (withCrc i.body)]) ∧ t.reg .holding a.toNat = v ∧
      ∀ k j, ¬(k = .holding ∧ j = a.toNat) → t.reg k j = s.reg k j := by
  intro i
  obtain ⟨w, hw, -, hresp, hreach⟩ := prepareWrite_samples (c := 0) i (s := s.latch i) hg
  obtain ⟨u, hu, hreach'⟩ := respond_resetting (r := Result.writtenResult v) hm hreach.gaps
  rw [hresp] at hreach'
  have htotal := (((reached_latch s i).commit a.toNat v).trans hreach).trans hreach'
  obtain ⟨hcut, hout, hreg⟩ := htotal.of_commit
  rw [List.nil_append, List.replicate_zero, List.nil_append, List.append_nil] at hout
  exact ⟨u.coreReset, exec_of_respond_cut (transaction_wsr hr) hw hu, hcut, hout, hreg⟩

/-- Settles O3: before the commit the register is untouched, behind it `exec_wsr_resetting` says what is out. -/
theorem resetInsideAWriteKeepsDoneActions : Obligations.ResetInsideAWriteKeepsDoneActions := by
  unfold Obligations.ResetInsideAWriteKeepsDoneActions
  intro s addr a v gs hr i event
  have hcommitted : ∀ m ≤ 2, s.gaps = .still :: .still :: (List.replicate m .still ++ .resetting :: gs) →
      ∃ t, exec i s = .next t ∧ CutByReset s t gs ∧
        t.out = s.out ++ event ++ (if m = 0 then [] else [.txFrame (withCrc i.body)]) ∧ t.reg .holding a.toNat = v ∧
        ∀ k j, ¬(k = .holding ∧ j = a.toNat) → t.reg k j = s.reg k j := fun m hm hg => by
    obtain ⟨t, ht, hcut, hout, hreg⟩ := exec_wsr_resetting hr hm hg
    exact ⟨t, ht, hcut, hout.trans (List.append_assoc _ _ _).symm, hreg⟩
  refine ⟨fun hg => ?event, fun hg => ?commit, fun hg => ?transmission, hcommitted 1 (by omega), hcommitted 2 (by omega)⟩
  case event =>
    obtain ⟨u, hu, hreach⟩ := prepareWrite_resetting_event (i := i) (s := s.latch i) hg
    have htotal := (reached_latch s i).trans hreach
    exact ⟨u.coreReset, exec_of_prepare_cut (transaction_wsr hr) hu, htotal.cutByReset, htotal.out.trans (List.append_nil _),
      htotal.reg⟩
  case commit =>
    obtain ⟨u, hu, hreach⟩ := prepareWrite_resetting_commit (i := i) (s := s.latch i) hg
    have htotal := (reached_latch s i).trans hreach
    exact ⟨u.coreReset, exec_of_prepare_cut (transaction_wsr hr) hu, htotal.cutByReset, htotal.out, htotal.reg⟩
  case transmission =>
    obtain ⟨t, ht, hcut, hout, hreg⟩ := hcommitted 0 (by omega) hg
    exact ⟨t, ht, hcut, hout.trans (List.append_nil _), hreg⟩

end Sys2Proof.Machine
end

section
/-! PROOFS. `Reset` as an event, while a frame is ready and inside a drop (spec/70_reset_and_hazards.md R170), and the observer's view
of a write (R180). -/

namespace Sys2Proof.Machine

/-- A `Reset` between the last two lines of `Drop`: no result is reported. -/
theorem dropFrame_resetting {s : State} {gs : List Gap} (h : s.gaps = .resetting :: gs) :
    ∃ u, dropFrame s = .cut u.coreReset ∧ Reached s u gs [] :=
  ⟨{ s.toIdle with gaps := gs }, by rw [dropFrame, conclude, atGap_resetting (s := s.toIdle) h]; rfl, rfl, rfl, rfl, rfl, rfl,
    (List.append_nil _).symm⟩

/-- The verification writes no register and puts nothing out. -/
theorem reached_of_verified {s m : State} (h : m = { s with crcAcc := m.crcAcc, crcMatch := m.crcMatch }) :
    Reached s m s.gaps [] := by
  rw [h]
  exact ⟨rfl, rfl, rfl, rfl, rfl, (List.append_nil _).symm⟩

/-- Settles O2: the event is `coreReset`, and the two points of `Process` are `atGap_reset` and `dropFrame_resetting`. -/
theorem resetEventRestoresCoreState : Obligations.ResetEventRestoresCoreState := by
  unfold Obligations.ResetEventRestoresCoreState
  refine ⟨fun s es hin hp => ?event, fun s as gs hc hf hg has => ?ready, fun s gs hc hf hg hfail => ?drop⟩
  case event =>
    exact ⟨({ s with inputs := es } : State).coreReset, step_event hp hin, hasResetValues_coreReset _, rfl, rfl, rfl, rfl, rfl, rfl⟩
  case ready =>
    obtain ⟨t, ht, hcut, hreg, hout⟩ := atGap_reset hg has
    exact ⟨t, (step_process hc hf).trans (process_of_cut ht), hcut, hreg, hout⟩
  case drop =>
    obtain ⟨v, hv, hcore, hreach⟩ := atGap_samples (c := 0) hg
    obtain ⟨m, hm, hvm⟩ := filterAndRun_of_fail (s := v) (by rw [hcore.rx, hcore.deviceAddr]; exact hfail)
    have hsm := hreach.trans (reached_of_verified hvm)
    obtain ⟨u, hu, hmu⟩ := dropFrame_resetting (hsm.gaps.trans hreach.gaps)
    have htotal := hsm.trans hmu
    refine ⟨u.coreReset, ?_, htotal.cutByReset, htotal.reg, htotal.out.trans (List.append_nil _)⟩
    rw [step_process hc hf, process_of_run hv, hm, hu]
    rfl

/-- A read and a write of one register at one point (R45): the answer is the old value. -/
theorem atGap_read_write {s : State} {k : RegKind} {i : Nat} {v : Word} (hi : i < s.hostSize k)
    (hg : s.gaps = [Gap.mk [.read k i, .write k i v] false]) :
    atGap s = .run ((({ s with gaps := [] } : State).emit (.hostValue k i (s.reg k i))).setReg k i v) := by
  have hr := hostAccess_read_of_lt (s := { s with gaps := [] }) (k := k) (i := i) hi
  rw [show ({ s with gaps := [] } : State).reg k i = s.reg k i from reg_congr rfl rfl k i] at hr
  have hw := hostAccess_write_of_lt (s := ({ s with gaps := [] } : State).emit (.hostValue k i (s.reg k i))) (k := k) (i := i) v hi
  simp only [atGap, hg, hostAccesses, hr, hw, Txn.run_andThen, Bool.false_eq_true, if_false]

/-- Settles O49: the event is out before the host reads the old value, and the commit overwrites what the host writes there. -/
theorem observerSeesTheOldValue : Obligations.ObserverSeesTheOldValue := by
  unfold Obligations.ObserverSeesTheOldValue
  intro s addr a v w hhook hr hhost hg
  obtain ⟨u, hu, hcore, hreach⟩ := preWrite_samples (c := 0) (.wsr addr a v) (s := s.latch (.wsr addr a v)) hg
  have hpoint := atGap_read_write (v := w) (by rw [hcore.hostSize]; exact hhost) hreach.gaps
  have hold : (preWriteHook (.wsr addr a v) u).reg .holding a.toNat = s.reg .holding a.toNat := reg_congr hreach.hr hreach.ir _ _
  have hout : (preWriteHook (.wsr addr a v) u).out = s.out ++ [.preWriteEvent (encode (.wsr addr a v)).bytes s.hookCtx] := by
    rw [hreach.out, writeEvents, latch_writeHookEn, if_pos hhook]
    rfl
  rw [exec_eq_outcome, transaction_wsr hr, prepareWrite, hu, Txn.run_andThen, hpoint, Txn.run_andThen, Txn.run_andThen,
    respond_quiet_body _ _ (Instr.wsr addr a v).body ((preWriteHook (.wsr addr a v) u).tx.drop 6) rfl
      (by simp [memWrite_zero, Instr.body]) rfl]
  refine ⟨_, rfl, (reg_congr rfl rfl _ _).trans (reg_setReg_same _ .holding a.toNat v), ?_⟩
  simp [hout, hold, Result.writtenResult]

end Sys2Proof.Machine
end

section
/-! PROOFS. Samples of the status registers (spec/10_state.md R32): what they show at each point of a request and around a drop. -/

namespace Sys2Proof.Machine

/-- The end of a transaction inside which the host only samples: it finds `Idle` and 0 beside the old `RESULT`. -/
theorem conclude_samples {r : Result} {s : State} {c : Nat} {gs : List Gap} (h : s.gaps = .samples c :: gs) :
    ∃ t, conclude r s = .run t ∧ t.result = r ∧ Reached s t gs
      (List.replicate c (.hostStatus { s.status with syncState := .idle, pendingLen := 0 }) ++ [.result r]) := by
  obtain ⟨m, hm, -, hreach⟩ := atGap_samples (s := s.toIdle) h
  refine ⟨m.report r, by rw [conclude, hm]; rfl, rfl, hreach.hr, hreach.ir, hreach.inputs, hreach.gaps, hreach.tw, ?_⟩
  rw [report_out, hreach.out, List.append_assoc]
  rfl

/-- The response tail of a transaction inside which the host only samples. -/
theorem respond_samples {r : Result} {s : State} {c : Nat} {gs : List Gap} (h : s.gaps = .samples c :: .samples c :: .samples c :: gs) :
    ∃ t, respond r s = .run t ∧ t.result = r ∧ Reached s t gs
      (List.replicate c (.hostStatus s.status) ++ [.txFrame s.applyAppend.response] ++ List.replicate c (.hostStatus s.status) ++
        (List.replicate c (.hostStatus { s.status with syncState := .idle, pendingLen := 0 }) ++ [.result r])) := by
  obtain ⟨m, hm, hcore, hreach⟩ := atGap_samples (s := s.applyAppend) h
  have hresp : m.response = s.applyAppend.response := by simp only [State.response, hcore.tx, hcore.txLen]
  obtain ⟨n, hn, hcore', hreach'⟩ := atGap_samples (s := m.emit (.txFrame m.response)) hreach.gaps
  obtain ⟨t, ht, hres, hreach''⟩ := conclude_samples (r := r) hreach'.gaps
  have hstatus : m.status = s.status := hcore.status
  have hstatus' : n.status = s.status := hcore'.status.trans hstatus
  refine ⟨t, by rw [respond, hm, Txn.run_andThen, hn, Txn.run_andThen, ht], hres, ?_⟩
  have hstart : Reached s s.applyAppend s.gaps [] := ⟨rfl, rfl, rfl, rfl, rfl, (List.append_nil _).symm⟩
  have htotal := (((hstart.trans hreach).emit (.txFrame m.response)).trans hreach').trans hreach''
  rw [emit_status, hstatus, hstatus', hresp, applyAppend_status, List.nil_append] at htotal
  exact htotal

/-! ## At every point of a request -/

theorem points_of_refused {s : State} {i : Instr} {code : Byte} (h : s.refusalCode i = some code) : s.points i = 3 := by
  simp [State.points, h]

theorem points_readRequest {s : State} {k : RegKind} {addr : Byte} {start count : Word}
    (hr : start.toNat + count.toNat ≤ s.size k) (hm : count.toNat ≤ s.maxReadCount) :
    s.points (readRequest k addr start count) = count.toNat + 4 := by
  have hnone : s.refusalCode (readRequest k addr start count) = none := by
    rw [refusalCode_readRequest, if_neg (by omega)]
  unfold State.points
  rw [hnone]
  cases k <;> rfl

theorem points_wsr {s : State} {addr : Byte} {a v : Word} (hr : a.toNat + 1 ≤ s.holdingCount) :
    s.points (.wsr addr a v) = 5 := by
  have hnone : s.refusalCode (.wsr addr a v) = none := by rw [refusalCode_wsr, if_neg (by omega)]
  unfold State.points
  rw [hnone]

theorem filter_readEvents (s : State) (body : List Byte) :
    (readEvents s body).filter Output.isSample = [] ∧ (readEvents s body).filter Output.isTxFrame = [] := by
  unfold readEvents
  split <;> exact ⟨rfl, rfl⟩

theorem filter_writeEvents (s : State) (i : Instr) :
    (writeEvents s i).filter Output.isSample = [] ∧ (writeEvents s i).filter Output.isTxFrame = [] := by
  unfold writeEvents
  split <;> exact ⟨rfl, rfl⟩

theorem filter_samples (n : Nat) (st : Status) :
    (List.replicate n (Output.hostStatus st)).filter Output.isSample = List.replicate n (.hostStatus st) ∧
      (List.replicate n (Output.hostStatus st)).filter Output.isTxFrame = [] := by
  simp [Output.isSample, Output.isTxFrame]

/-- Up to its response, a request whose host samples once at every point finds the status registers as they were, and sends no
frame. -/
theorem Begins.samples {s : State} {i : Instr} {b : Txn} {r : Result} (hb : Begins s i b r)
    (hg : s.gaps = List.replicate (s.points i) (.samples 1)) :
    ∃ m os n, s.points i = n + 3 ∧ b = .run m ∧ m.status = s.status ∧ m.gaps = List.replicate 3 (.samples 1) ∧
      m.out = s.out ++ os ∧
      os.filter Output.isSample = List.replicate n (.hostStatus s.status) ∧ os.filter Output.isTxFrame = [] := by
  cases hb with
  | refused i code hc =>
    rw [points_of_refused hc] at hg ⊢
    exact ⟨_, [], 0, rfl, rfl, rfl, hg, (List.append_nil _).symm, rfl, rfl⟩
  | read k addr start count hr hm =>
    rw [points_readRequest hr hm] at hg ⊢
    obtain ⟨m, hrun, hstatus, -, hreach⟩ := prepareRead_samples (gs := List.replicate 3 (.samples 1)) k addr
      (readRequest k addr start count).functionCode start.toNat (s := s.latch (readRequest k addr start count))
      (hg.trans (List.replicate_add (count.toNat + 1) 3 (Gap.samples 1)))
    refine ⟨m, _, count.toNat + 1, rfl, hrun, hstatus, hreach.gaps, hreach.out, ?_, ?_⟩
    · rw [List.filter_append, (filter_samples _ _).1, (filter_readEvents _ _).1, List.append_nil, Nat.mul_one]
      rfl
    · rw [List.filter_append, (filter_samples _ _).2, (filter_readEvents _ _).2]
      rfl
  | write addr a v hr =>
    rw [points_wsr hr] at hg ⊢
    obtain ⟨m, hrun, hstatus, -, hreach⟩ := prepareWrite_samples (c := 1) (gs := List.replicate 3 (.samples 1)) (.wsr addr a v)
      (s := s.latch (.wsr addr a v)) hg
    refine ⟨m, _, 2, rfl, hrun, hstatus, hreach.gaps, hreach.out, ?_, ?_⟩
    · rw [List.filter_append, List.filter_append, (filter_samples _ _).1, (filter_writeEvents _ _).1]
      rfl
    · rw [List.filter_append, List.filter_append, (filter_samples _ _).2, (filter_writeEvents _ _).2]
      rfl

/-- What the host finds when it samples once at every point of a request. -/
theorem exec_samples {s : State} {i : Instr} (hg : s.gaps = List.replicate (s.points i) (.samples 1)) :
    ∃ t before, exec i s = .next t ∧
      t.out = s.out ++ before ++ [.hostStatus { s.status with syncState := .idle, pendingLen := 0 }, .result t.result] ∧
      before.filter Output.isSample = List.replicate (s.points i - 1) (.hostStatus s.status) ∧
      (before.filter Output.isTxFrame).length = 1 := by
  obtain ⟨b, r, hb, ht⟩ := exists_begins s i
  obtain ⟨m, os, n, hn, hrun, hstatus, hgaps, hout, hsamples, hframes⟩ := hb.samples hg
  obtain ⟨t, hresp, hres, hreach⟩ := respond_samples (r := r) (gs := []) hgaps
  have hlast := hreach.out
  rw [hstatus, hout] at hlast
  refine ⟨t, os ++ [.hostStatus s.status, .txFrame m.applyAppend.response, .hostStatus s.status],
    by rw [exec_eq_outcome, ht, hrun, Txn.run_andThen, hresp]; rfl, by simp [hlast, hres], ?_, ?_⟩
  · rw [List.filter_append, hsamples, hn, show n + 3 - 1 = n + 2 from rfl, List.replicate_add]
    rfl
  · rw [List.filter_append, hframes]
    rfl

/-! ## Around a drop -/

/-- What the host finds when it samples once before the first action of `Process` and once inside `Drop`. -/
theorem step_drop_samples {s : State} (hc : s.configured = true) (hf : s.syncState = .frameReady)
    (hg : s.gaps = [.samples 1, .samples 1]) (hfail : s.rx.b0 ≠ s.deviceAddr ∨ s.rx.crcField ≠ crc16 s.rx.body) :
    ∃ t, step s = .next t ∧ (∀ k j, t.reg k j = s.reg k j) ∧
      t.out = s.out ++ [.hostStatus s.status, .hostStatus { s.status with syncState := .idle, pendingLen := 0 },
        .result Result.idleResult] := by
  obtain ⟨v, hv, hcore, hreach⟩ := atGap_samples hg
  obtain ⟨m, hm, hvm⟩ := filterAndRun_of_fail (s := v) (by rw [hcore.rx, hcore.deviceAddr]; exact hfail)
  have hsm := hreach.trans (reached_of_verified hvm)
  have hstatus : m.status = s.status := (show m.status = v.status by rw [hvm]; rfl).trans hcore.status
  obtain ⟨t, ht, -, hmt⟩ := conclude_samples (r := Result.idleResult) (hsm.gaps.trans hreach.gaps)
  have htotal := hsm.trans hmt
  rw [hstatus] at htotal
  refine ⟨t, ?_, fun k j => reg_congr htotal.hr htotal.ir k j, htotal.out⟩
  rw [step_process hc hf, process_of_run hv, hm, dropFrame, ht]
  rfl

/-! ## Samples change nothing -/

/-- `s` is `q` with samples to come and samples answered, and nothing else. -/
structure Sampled (s q : State) : Prop where
  only : s.onlySampled
  quiet : q.quiet
  same : s = { q with gaps := s.gaps, out := s.out }
  out : s.out.filter (fun o => !o.isSample) = q.out.filter (fun o => !o.isSample)

/-- Two transactions run on, to states that differ in samples at most. -/
def Txn.Agree (t u : Txn) : Prop := ∃ s q, t = .run s ∧ u = .run q ∧ Sampled s q

theorem Txn.Agree.andThen {t u : Txn} {f g : State → Txn} (h : t.Agree u) (hfg : ∀ s q, Sampled s q → (f s).Agree (g q)) :
    (t.andThen f).Agree (u.andThen g) := by
  obtain ⟨s, q, rfl, rfl, hsq⟩ := h
  exact hfg s q hsq

theorem Sampled.run {s q : State} (h : Sampled s q) : (Txn.run s).Agree (.run q) := ⟨s, q, rfl, rfl, h⟩

/-- An update that neither reads nor writes the coming gaps and the outputs keeps the relation. -/
theorem Sampled.update {s q : State} (h : Sampled s q) {f : State → State}
    (hf : ∀ (p : State) gs os, f { p with gaps := gs, out := os } = { f p with gaps := gs, out := os }) : Sampled (f s) (f q) := by
  have hgaps : ∀ p, (f p).gaps = p.gaps ∧ (f p).out = p.out := fun p => by
    have hp : f p = { f p with gaps := p.gaps, out := p.out } := hf p p.gaps p.out
    constructor <;> rw [hp]
  obtain ⟨honly, hquiet, hsame, hout⟩ := h
  refine ⟨?_, (hgaps q).1.trans hquiet, ?_, ?_⟩
  · rw [State.onlySampled, (hgaps s).1]
    exact honly
  · rw [(hgaps s).1, (hgaps s).2, ← hf, ← hsame]
  · rw [(hgaps s).2, (hgaps q).2, hout]

theorem Sampled.emit {s q : State} (h : Sampled s q) (o : Output) : Sampled (s.emit o) (q.emit o) := by
  obtain ⟨honly, hquiet, hsame, hout⟩ := h
  exact ⟨honly, hquiet, by rw [hsame]; rfl, by rw [emit_out, emit_out, List.filter_append, List.filter_append, hout]⟩

theorem Sampled.reg {s q : State} (h : Sampled s q) (k : RegKind) (j : Nat) : s.reg k j = q.reg k j := by
  rw [h.same]
  exact reg_congr rfl rfl k j

/-- A gap without a `Reset` in which the host only samples is a number of samples. -/
theorem gap_eq_samples {g : Gap} (hr : g.resets = false) (ha : ∀ a ∈ g.accesses, a = .sample) :
    g = .samples g.accesses.length := by
  obtain ⟨as, b⟩ := g
  obtain rfl : b = false := hr
  rw [Gap.samples, ← List.eq_replicate_of_mem ha]

/-- A point between two actions: the samples it holds are answered, and no register changes. -/
theorem atGap_agree {s q : State} (h : Sampled s q) : (atGap s).Agree (atGap q) := by
  obtain ⟨honly, hquiet, hsame, hout⟩ := h
  rw [atGap_quiet hquiet]
  cases hg : s.gaps with
  | nil => exact ⟨s, q, atGap_quiet hg, rfl, honly, hquiet, hsame, hout⟩
  | cons g gs =>
    obtain ⟨hr, ha⟩ := honly g (by simp [hg])
    obtain ⟨m, hm, hcore, hreach⟩ := atGap_samples (hg.trans (congrArg (· :: gs) (gap_eq_samples hr ha)))
    refine ⟨m, q, hm, rfl, ?_, hquiet, ?_, ?_⟩
    · intro g' hg'
      exact honly g' (by rw [hg]; exact List.mem_cons_of_mem g (hreach.gaps ▸ hg'))
    · rw [hcore, hreach.hr, hreach.ir, hsame]
    · rw [hreach.out, List.filter_append, hout]
      simp [Output.isSample]

theorem Sampled.response {s q : State} (h : Sampled s q) : s.response = q.response := by rw [h.same]; rfl

theorem Sampled.inRange {s q : State} (h : Sampled s q) (k : RegKind) (a n : Nat) : s.inRange k a n = q.inRange k a n := by
  rw [h.same]
  cases k <;> rfl

theorem Sampled.maxReadCount {s q : State} (h : Sampled s q) : s.maxReadCount = q.maxReadCount := by rw [h.same]

theorem Sampled.txWrite {s q : State} (h : Sampled s q) (n : Nat) (bs : List Byte) : Sampled (s.txWrite n bs) (q.txWrite n bs) :=
  h.update (f := fun p => p.txWrite n bs) fun _ _ _ => rfl

theorem Sampled.setTxLen {s q : State} (h : Sampled s q) (n : Nat) : Sampled (s.setTxLen n) (q.setTxLen n) :=
  h.update (f := fun p => p.setTxLen n) fun _ _ _ => rfl

theorem Sampled.readHook {s q : State} (h : Sampled s q) : Sampled (readHook s) (readHook q) := by
  have hen : s.readHookEn = q.readHookEn := by rw [h.same]
  have hctx : s.hookCtx = q.hookCtx := by rw [h.same]
  unfold Machine.readHook
  rw [hen, h.response, hctx]
  split
  · exact h.emit _
  · exact h

theorem Sampled.preWriteHook {s q : State} (h : Sampled s q) (i : Instr) : Sampled (preWriteHook i s) (preWriteHook i q) := by
  have hen : s.writeHookEn = q.writeHookEn := by rw [h.same]
  have hctx : s.hookCtx = q.hookCtx := by rw [h.same]
  unfold Machine.preWriteHook
  rw [hen, hctx]
  split
  · exact h.emit _
  · exact h

theorem readLoop_agree (k : RegKind) (a n i : Nat) {s q : State} (h : Sampled s q) :
    (readLoop k a n i s).Agree (readLoop k a n i q) := by
  induction n generalizing i s q with
  | zero => exact h.run
  | succ n ih =>
    refine (atGap_agree h).andThen fun m p hmp => ?_
    rw [hmp.reg]
    exact ih (i + 1) (hmp.txWrite _ _)

theorem conclude_agree (r : Result) {s q : State} (h : Sampled s q) : (conclude r s).Agree (conclude r q) :=
  (atGap_agree (h.update (f := State.toIdle) fun _ _ _ => rfl)).andThen fun _ _ hmp =>
    ((hmp.update (f := fun p => { p with result := r }) fun _ _ _ => rfl).emit (.result r)).run

theorem respond_agree (r : Result) {s q : State} (h : Sampled s q) : (respond r s).Agree (respond r q) := by
  refine (atGap_agree (h.update (f := State.applyAppend) fun _ _ _ => rfl)).andThen fun m p hmp => ?_
  rw [hmp.response]
  exact (atGap_agree (hmp.emit _)).andThen fun _ _ hnp => conclude_agree r hnp

theorem raiseException_agree (addr fc code : Byte) {s q : State} (h : Sampled s q) :
    (raiseException addr fc code s).Agree (raiseException addr fc code q) :=
  respond_agree _ ((h.txWrite 0 _).setTxLen 3)

theorem readRegs_agree (k : RegKind) (addr fc : Byte) (start count : Word) {s q : State} (h : Sampled s q) :
    (readRegs k addr fc start count s).Agree (readRegs k addr fc start count q) := by
  simp only [readRegs, h.inRange, h.maxReadCount]
  split
  · exact (readLoop_agree k _ _ 0 (h.txWrite 0 _)).andThen fun m p hmp =>
      (atGap_agree (hmp.setTxLen _)).andThen fun n p' hnp => respond_agree _ hnp.readHook
  · exact raiseException_agree addr fc _ h

theorem writeReg_agree (i : Instr) {s q : State} (h : Sampled s q) : (writeReg i s).Agree (writeReg i q) := by
  simp only [writeReg, h.inRange]
  split
  · refine (atGap_agree h).andThen fun m p hmp => (atGap_agree (hmp.preWriteHook i)).andThen fun n p' hnp => respond_agree _ ?_
    have hcommit := hnp.update (f := fun p => p.setReg .holding i.fieldA.toNat i.fieldB) fun _ _ _ => rfl
    exact (hcommit.txWrite 0 _).setTxLen 6
  · exact raiseException_agree _ _ _ h

theorem transaction_agree (i : Instr) {s q : State} (h : Sampled s q) : (transaction i s).Agree (transaction i q) := by
  have hlatch : Sampled (s.latch i) (q.latch i) := h.update (f := fun p => p.latch i) fun _ _ _ => rfl
  cases i with
  | rhr addr start count => exact readRegs_agree .holding addr 0x03 start count hlatch
  | rir addr start count => exact readRegs_agree .input addr 0x04 start count hlatch
  | wsr addr a v => exact writeReg_agree _ hlatch
  | illfn addr fc a b => exact raiseException_agree addr fc illegalFunction hlatch

/-- `Process` behind its first point: the frame, the address and the verification are the same. -/
theorem filtered_agree {s q : State} (h : Sampled s q) : (filtered s).Agree (filtered q) := by
  have hverify : Sampled s.applyVerify q.applyVerify := h.update (f := State.applyVerify) fun _ _ _ => rfl
  have hrx : s.rx = q.rx := by rw [h.same]
  have haddr : s.deviceAddr = q.deviceAddr := by rw [h.same]
  have hmatch : s.applyVerify.crcMatch = q.applyVerify.crcMatch := by rw [hverify.same]
  rw [filtered, filtered, hrx, haddr, hmatch]
  split
  · exact conclude_agree _ h
  · split
    · exact transaction_agree _ hverify
    · exact conclude_agree _ hverify

/-- A transaction inside which the host only samples leaves what it leaves without the samples. -/
theorem step_agree {s : State} (hc : s.configured = true) (hf : s.syncState = .frameReady) (honly : s.onlySampled) :
    ∃ t q, step s = .next t ∧ step { s with gaps := [] } = .next q ∧ Sampled t q := by
  obtain ⟨t, q, ht, hq, htq⟩ :=
    (atGap_agree (s := s) (q := { s with gaps := [] }) ⟨honly, rfl, rfl, rfl⟩).andThen fun _ _ h => filtered_agree h
  refine ⟨t, q, ?_, ?_, htq⟩
  · rw [step_process hc hf, process_eq_outcome, ht]
    rfl
  · rw [step_process (s := { s with gaps := [] }) hc hf, process_eq_outcome, hq]
    rfl

/-- Settles O60: the event, every point of a request, both points around a drop, and a transaction with samples beside the one
without. -/
theorem samplesShowTheStatusRegisters : Obligations.SamplesShowTheStatusRegisters := by
  unfold Obligations.SamplesShowTheStatusRegisters
  refine ⟨fun s es hin hp => step_event hp hin, fun i s hg => exec_samples hg, fun s hc hf hg hfail => ?drop,
    fun s hc hf honly => ?same⟩
  case drop =>
    obtain ⟨t, ht, hreg, hout⟩ := step_drop_samples hc hf hg hfail
    rw [State.status, hc, hf] at hout
    exact ⟨t, ht, hreg, hout⟩
  case same =>
    obtain ⟨t, q, ht, hq, htq⟩ := step_agree hc hf honly
    exact ⟨t, q, ht, hq, htq.same, htq.out⟩

end Sys2Proof.Machine
end
